-- ==== Sys2Proof/Word.lean ====
section
/-! DEFINITION. The words of the block: a byte on the wire, a command word, a result word, a
clock value (spec/00_scope.md R6, R7; spec/30_encoding.md R55 to R58). -/

namespace Sys2Proof

/-- One byte on the wire (30_encoding.md R45: frames are always 8 bits). -/
abbrev Byte := BitVec 8

/-- The host command word `CW[11:0]` (30_encoding.md R56). -/
abbrev CmdWord := BitVec 12

/-- A 16-bit big-endian pair of bytes (20_memory.md R34). -/
abbrev Pair := BitVec 16

/-- The result word `RES`, `RESULT_BITS` = 32 (30_encoding.md R58). -/
abbrev ResultWord := BitVec 32

/-- A value of the millisecond clock, `NOW_BITS` = 32 (00_scope.md R6). -/
abbrev ClockVal := BitVec 32

end Sys2Proof
end

