-- ==== Sys2Proof/Config.lean ====
section
/-! DEFINITION. What an implementation fixes (the parameters of spec/00_scope.md R6) and the free
values of the model. The constants here have no body: nothing proved in Lean depends on their
values. Which of them make up the block is `Machine.params` (Machine/Params.lean). -/

namespace Sys2Proof

/-- The implementation parameters of 00_scope.md R6, under the spec's names. None is state, and
none changes after construction (R159). `NOW_BITS` and `RESULT_BITS` are the widths of `ClockVal`
and `ResultWord`. -/
structure Params where
  /-- `T_SETTLE_US`: the duration of every settle delay, in microseconds. -/
  tSettleUs : Nat
  /-- `HAS_SHDN`: whether the shutdown pin exists. -/
  hasShdn : Bool
  /-- `CAL_ADDR[0..7]`: the calibration-register addresses, in transmit order. -/
  calAddr : Vector Byte 8
  /-- `ADDR_P_HI`. -/
  addrPHi : Byte
  /-- `ADDR_P_LO`. -/
  addrPLo : Byte
  /-- `ADDR_T_HI`. -/
  addrTHi : Byte
  /-- `ADDR_T_LO`. -/
  addrTLo : Byte
  /-- `CMD_START`: the start-conversion command byte. -/
  cmdStart : Byte
  /-- `PROBE`: the byte sent in a probe exchange. -/
  probe : Byte
  /-- `FLUSH`: the byte after the start command. -/
  flush : Byte
  /-- `NULLB`: the byte of the trailing exchange. -/
  nullb : Byte
  /-- `CONV_DELAY_MS`: the mandatory delay between start and read. -/
  convDelayMs : Nat
  /-- `P_MULT`: the pressure output multiplier. -/
  pMult : Int
  /-- `T_MULT`: the temperature output multiplier. -/
  tMult : Int
  /-- `T0`: the temperature offset, in ADC counts. -/
  t0 : Int
  /-- `SLOPE_NUM`: numerator of the temperature slope. -/
  slopeNum : Int
  /-- `SLOPE_DEN`: denominator of the temperature slope. -/
  slopeDen : Int
deriving DecidableEq, Repr

/-- `T_SETTLE_US` less one (OPEN, 92 D8; a positive integer). Log 7. -/
opaque Config.tSettleUsPred : Nat

/-- `HAS_SHDN` (OPEN, 92 D26). Log 7. -/
opaque Config.hasShdn : Bool

/-- `CAL_ADDR[0..7]` (OPEN, 92 D9). Log 7. -/
opaque Config.calAddr : Vector Byte 8

/-- `ADDR_P_HI` (OPEN, 92 D9). Log 7. -/
opaque Config.addrPHi : Byte

/-- `ADDR_P_LO` (OPEN, 92 D9). Log 7. -/
opaque Config.addrPLo : Byte

/-- `ADDR_T_HI` (OPEN, 92 D9). Log 7. -/
opaque Config.addrTHi : Byte

/-- `ADDR_T_LO` (OPEN, 92 D9). Log 7. -/
opaque Config.addrTLo : Byte

/-- `CMD_START` (OPEN, 92 D9). Log 7. -/
opaque Config.cmdStart : Byte

/-- `CONV_DELAY_MS` less 3 (OPEN, 92 D18; an integer in 3..10, so eight values). Log 7. -/
opaque Config.convDelayOver3 : Fin 8

/-- Whether `P_MULT` is 1000 rather than 100 (OPEN, 92 D16). Log 7. -/
opaque Config.pMultIs1000 : Bool

/-- `T_MULT` less one (OPEN, 92 D16; a positive integer). Log 7. -/
opaque Config.tMultPred : Nat

/-- FREE VALUE (93 U9, 10_state.md R25): the `n`-th bit drawn from the data-in oracle, where the
state's list of answers does not supply it. Log 3. -/
opaque Config.dinBit : Nat → Bool

/-- FREE VALUE (93 U6, 43_compensation.md R118 (a)): the `n`-th unspecified result word returned.
Log 4. -/
opaque Config.freeResult : Nat → ResultWord

/-- FREE VALUE: the result word that stands for a signed value outside 32 bits, for which the spec
states no word. It depends on the value alone, so that the outputs stay pure and repeatable
(10_state.md R14, 43_compensation.md R115). Log 9. -/
opaque Config.unfitResult : Int → ResultWord

end Sys2Proof
end

