-- ==== Sys2Proof/Syntax.lean ====
section
/-! DEFINITION. The seven host commands, one constructor per row of spec/opcode_table.json
(spec/30_encoding.md R57). -/

namespace Sys2Proof

/-- A host command (30_encoding.md R57). Only `XCHG` has an operand; `TICK` takes the clock value
from the input `NOW`, not from the word (R55). -/
inductive Instr where
  /-- `XCHG imm8`: exchange one byte (40_transport.md R65). -/
  | xchg (imm8 : Byte)
  /-- `SEL`: select the device (41_selector.md R75). -/
  | sel
  /-- `DESEL`: deselect the device (41_selector.md R77). -/
  | desel
  /-- `INIT`: configure the pins, read and decode the calibration (42_calibration.md R85). -/
  | init
  /-- `TICK`: one step of the scheduler (44_scheduler.md R120). -/
  | tick
  /-- `RDP`: read the compensated pressure (43_compensation.md R108). -/
  | rdp
  /-- `RDT`: read the temperature (43_compensation.md R112). -/
  | rdt
deriving DecidableEq, Repr

end Sys2Proof
end

