-- ==== Sys2Proof/WellFormed.lean ====
section
/-! DEFINITION. Well-formedness. Every term of `Instr` is a command of the spec: its one operand is
a byte of any value (30_encoding.md R56), so there is nothing to check on it. What can be ill-formed
is a command word (R59) and a set of parameters (00_scope.md R6). -/

namespace Sys2Proof

/-- The opcode field `CW[11:8]` is one of the seven of 30_encoding.md R57 (R59: 0x0 and 0x8 to 0xF
are reserved). -/
def CmdWord.opcodeAssigned (w : CmdWord) : Bool :=
  let op := (w.extractLsb' 8 4).toNat
  1 ≤ op && op ≤ 7

/-- The operand field is allowed: any value for `XCHG`, 0x00 for every other opcode
(30_encoding.md R56, R59). -/
def CmdWord.operandAllowed (w : CmdWord) : Bool :=
  (w.extractLsb' 8 4).toNat == 1 || (w.extractLsb' 0 8).toNat == 0

/-- A command word is legal (30_encoding.md R59). -/
def CmdWord.legal (w : CmdWord) : Bool :=
  CmdWord.opcodeAssigned w && CmdWord.operandAllowed w

/-- The parameters meet the constraints of the table in 00_scope.md R6. -/
def Params.wf (p : Params) : Bool :=
  decide (0 < p.tSettleUs)
    && decide (3 ≤ p.convDelayMs ∧ p.convDelayMs ≤ 10)
    && decide (p.pMult = 100 ∨ p.pMult = 1000)
    && decide (0 < p.tMult)
    && decide (p.slopeNum ≠ 0)
    && decide (0 < p.slopeDen)

end Sys2Proof
end

