-- ==== Sys2Proof/Decode.lean ====
section
/-! DEFINITION. Decoding and encoding of the host command word (spec/30_encoding.md R56, R57, R59,
R61). -/

namespace Sys2Proof

/-- Why a command word is illegal (30_encoding.md R59). -/
inductive IllegalWord where
  /-- The opcode is 0x0 or 0x8 to 0xF. -/
  | reservedOpcode (op : BitVec 4)
  /-- `imm8` is not 0x00 on a command other than `XCHG`. -/
  | operandNotZero (op : BitVec 4) (imm8 : Byte)
deriving DecidableEq, Repr

/-- The field `CW[11:8]` (30_encoding.md R56). -/
def opField (w : CmdWord) : BitVec 4 := w.extractLsb' 8 4

/-- The field `CW[7:0]` (30_encoding.md R56). -/
def imm8Field (w : CmdWord) : Byte := w.extractLsb' 0 8

/-- A command that takes no operand: `imm8` must be 0x00 (30_encoding.md R56, R59). -/
def noOperand (op : BitVec 4) (imm8 : Byte) (i : Instr) : Except IllegalWord Instr :=
  if imm8 = 0#8 then .ok i else .error (.operandNotZero op imm8)

/-- `Decode(CW)` of 30_encoding.md R61, total on all 4096 words. -/
def decode (w : CmdWord) : Except IllegalWord Instr :=
  let op := opField w
  let imm8 := imm8Field w
  match op.toNat with
  | 1 => .ok (.xchg imm8)
  | 2 => noOperand op imm8 .sel
  | 3 => noOperand op imm8 .desel
  | 4 => noOperand op imm8 .init
  | 5 => noOperand op imm8 .tick
  | 6 => noOperand op imm8 .rdp
  | 7 => noOperand op imm8 .rdt
  | _ => .error (.reservedOpcode op)

/-- The opcode of a command (30_encoding.md R57). -/
def opcodeOf : Instr → BitVec 4
  | .xchg _ => 0x1#4
  | .sel => 0x2#4
  | .desel => 0x3#4
  | .init => 0x4#4
  | .tick => 0x5#4
  | .rdp => 0x6#4
  | .rdt => 0x7#4

/-- The operand byte of a command, 0x00 where it has none (30_encoding.md R56). -/
def operandOf : Instr → Byte
  | .xchg imm8 => imm8
  | .sel => 0x00#8
  | .desel => 0x00#8
  | .init => 0x00#8
  | .tick => 0x00#8
  | .rdp => 0x00#8
  | .rdt => 0x00#8

/-- The command word of a command: `op` in [11:8], `imm8` in [7:0] (30_encoding.md R56). -/
def encode (i : Instr) : CmdWord := opcodeOf i ++ operandOf i

/-- The command word held in the low `nbits` bits of `w`, or none where a bit above bit 11 is set:
such a number is no command word, the port is 12 bits wide (30_encoding.md R55; log 13). -/
def cmdWordOfTable (nbits w : Nat) : Option CmdWord :=
  let v := w % 2 ^ nbits
  if v < 4096 then some (BitVec.ofNat 12 v) else none

/-- The command the decoder reads from a word numbered as spec/opcode_table.json numbers it
(bit 0 least significant), none where it is illegal. -/
def decodeTableWord (nbits w : Nat) : Option Instr :=
  match cmdWordOfTable nbits w with
  | none => none
  | some cw =>
    match decode cw with
    | .ok i => some i
    | .error _ => none

end Sys2Proof
end

