-- ==== Sys2Proof/Machine/State.lean ====
section
/-! DEFINITION. The state of the block (spec/10_state.md R10 to R29) with the inputs the host and
the peripheral have supplied, its value after reset (R26; spec/70_reset_and_hazards.md R156), and
the reasons a step can stop. -/

namespace Sys2Proof.Machine

/-- The scheduler state `SCHED` (10_state.md R16). The encoding 3 does not exist (93 U8). -/
inductive Sched where
  | startConversion
  | waitToRead
  | readConversion
deriving DecidableEq, Repr

/-- The pins of the block (10_state.md R18). -/
inductive Pin where
  | din
  | dout
  | sclk
  | csn
  | shdn
deriving DecidableEq, Repr

/-- The output pins, which have a latch (10_state.md R19). -/
inductive OutPin where
  | dout
  | sclk
  | csn
  | shdn
deriving DecidableEq, Repr

/-- A direction a pin is configured to (00_scope.md R8, `PinCfg`). -/
inductive Dir where
  | input
  | output
deriving DecidableEq, Repr

/-- The direction register of a pin: `unconfigured` at reset (10_state.md R20). -/
inductive DirReg where
  | unconfigured
  | configured (d : Dir)
deriving DecidableEq, Repr

/-- An event of the trace (10_state.md R24; 00_scope.md R8). -/
inductive Event where
  /-- `Cfg(p, dir)`: pin `p` configured. -/
  | cfg (p : Pin) (d : Dir)
  /-- `W(p, v)`: output pin `p` driven to level `v`. -/
  | write (p : OutPin) (v : Bool)
  /-- `D`: one settle delay. -/
  | delay
  /-- `S(m)`: the data-in pin sampled as `m`. -/
  | sample (m : Bool)
  /-- `Now(t)`: the clock input read as `t`. -/
  | now (t : ClockVal)
deriving DecidableEq, Repr

/-- The output latches `LATCH.p` (10_state.md R19). `LATCH.SHDN` exists when `HAS_SHDN` (log 8). -/
structure Latches where
  dout : Bool
  sclk : Bool
  csn : Bool
  shdn : Bool
deriving DecidableEq, Repr

/-- The pin directions `DIR.p` (10_state.md R20). -/
structure Dirs where
  din : DirReg
  dout : DirReg
  sclk : DirReg
  csn : DirReg
  shdn : DirReg
deriving DecidableEq, Repr

/-- The reasons of `refuse(reason)` (60_exceptions.md R146). They are outcomes the spec defines on
the next state (log 6), not refusals of the model. -/
inductive RefuseReason where
  | illegalCommand
  | notInitialised
  | alreadyInitialised
deriving DecidableEq, Repr

/-- What the command port last answered: nothing yet, the result word of a completed command
(30_encoding.md R55, R58), or a refusal, which returns no result (60_exceptions.md R146). -/
inductive Response where
  | noneYet
  | result (res : ResultWord)
  | refused (reason : RefuseReason)
deriving DecidableEq, Repr

/-- One command the host presents: the command word and the clock value on `NOW` with it
(30_encoding.md R55). -/
structure HostCmd where
  cw : CmdWord
  now : ClockVal
deriving DecidableEq, Repr

/-- The state (10_state.md R10), then the model's own fields: the inputs presented and not yet used
(R25; 60_exceptions.md R150) and the counters of the free values. -/
structure State where
  /-- `A0R`, s16: coefficient `a0`, raw (R11). -/
  a0r : BitVec 16
  /-- `B1R`, s16: coefficient `b1`, raw (R11). -/
  b1r : BitVec 16
  /-- `B2R`, s16: coefficient `b2`, raw (R11). -/
  b2r : BitVec 16
  /-- `C12R`, s14: coefficient `c12`, raw, after the 2-bit shift (R11). -/
  c12r : BitVec 14
  /-- `TADC`, u10: raw temperature sample (R12). -/
  tadc : BitVec 10
  /-- `PADC`, u10: raw pressure sample (R12). -/
  padc : BitVec 10
  /-- `TSTART`, u32: last-start timestamp (R13). -/
  tstart : ClockVal
  /-- `SCHED`: scheduler state (R16). -/
  sched : Sched
  /-- `INITED`: the pins are configured and the coefficients decoded (R17). -/
  inited : Bool
  /-- `SAMP_VALID`: the samples hold a completed read (R17). -/
  sampValid : Bool
  /-- `LATCH.p`: the levels the output pins drive (R19). -/
  latch : Latches
  /-- `DIR.p`: the pin directions (R20). -/
  dir : Dirs
  /-- `TR`: the events since reset, oldest first (R24). -/
  tr : List Event
  /-- The mark of a refused command, which stays for the rest of the run (60_exceptions.md R146). -/
  refusedMark : Bool
  /-- The command port's last answer (30_encoding.md R55, R58). -/
  response : Response
  /-- INPUT: the commands the host has presented and the block has not run, oldest first (log 1). -/
  port : List HostCmd
  /-- INPUT: the level of the clock input `NOW` at the command being run (R25; log 2). -/
  now : ClockVal
  /-- INPUT: the peripheral's next answers to data-in samples, next one first (R25; log 3). -/
  din : List Bool
  /-- How many oracle bits have been drawn: the index of the free value `Config.dinBit` (log 3). -/
  drawn : Nat
  /-- How many unspecified results have been returned: the index of the free value
  `Config.freeResult` (log 4). -/
  freeDraws : Nat
deriving DecidableEq, Repr

/-- The faults. There are none: "The list of exception causes of this hardware is empty"
(60_exceptions.md R140). Nothing raises one, which is neither safe nor unsafe: the type is empty. -/
inductive Fault where
deriving DecidableEq, Repr

/-- The model's refusals. -/
inductive Refusal where
  /-- Raised only by an arm of `exec` whose command has no meaning in the model; no arm is left.
  Safe: nothing can be proved past it. -/
  | notModelled (mnemonic : String)
deriving DecidableEq, Repr

/-- The block right after power-on reset (10_state.md R26; 70_reset_and_hazards.md R156): `SCHED` is
`StartConversion`, the marks are 0, every direction is `unconfigured`, `TR` is empty. DESIGN CHOICE
(log 5, unsafe): the data registers and latches, which the spec holds as unwritten, are 0 here.
DESIGN CHOICE (logs 1 to 4): no command presented, no answers supplied, counters and clock input 0. -/
def State.reset : State where
  a0r := 0#16
  b1r := 0#16
  b2r := 0#16
  c12r := 0#14
  tadc := 0#10
  padc := 0#10
  tstart := 0#32
  sched := .startConversion
  inited := false
  sampValid := false
  latch := { dout := false, sclk := false, csn := false, shdn := false }
  dir :=
    { din := .unconfigured, dout := .unconfigured, sclk := .unconfigured,
      csn := .unconfigured, shdn := .unconfigured }
  tr := []
  refusedMark := false
  response := .noneYet
  port := []
  now := 0#32
  din := []
  drawn := 0
  freeDraws := 0

end Sys2Proof.Machine
end

