-- ==== Sys2Proof/Machine/Flags.lean ====
section
/-! DEFINITION. The marks. The block has no condition codes and no status flags (10_state.md R17);
the bits of that kind are `INITED`, `SAMP_VALID` and the mark of a refused command. -/

namespace Sys2Proof.Machine

/-- `x[INITED] <- 1` (42_calibration.md R85). -/
def setInited (s : State) : State := { s with inited := true }

/-- `x[SAMP_VALID] <- 1` (44_scheduler.md R130). -/
def setSampValid (s : State) : State := { s with sampValid := true }

/-- The mark of a refused command, never cleared (60_exceptions.md R146). -/
def setRefusedMark (s : State) : State := { s with refusedMark := true }

end Sys2Proof.Machine
end

