-- ==== Sys2Proof/Machine/Operands.lean ====
section
/-! DEFINITION. The arithmetic and the record layouts of the block: the integer operations of
spec/00_scope.md R7, the bit order of the shift accumulator (20_memory.md R33), the byte pairs
(R34), the calibration and sample records (30_encoding.md R51 to R54). -/

namespace Sys2Proof.Machine

/-- `sext_N(v)`: the bits of `v` read as a two's-complement number (00_scope.md R7). -/
def sext {n : Nat} (v : BitVec n) : Int := v.toInt

/-- `zext_N(v)`: the bits of `v` read as a non-negative number (00_scope.md R7). -/
def zext {n : Nat} (v : BitVec n) : Int := (v.toNat : Int)

/-- `a << n`: multiplication by `2^n` (00_scope.md R7). -/
def shl (a : Int) (n : Nat) : Int := a * 2 ^ n

/-- `asr(a, n)`: `floor(a / 2^n)` (00_scope.md R7). -/
def asr (a : Int) (n : Nat) : Int := Int.fdiv a (2 ^ n)

/-- `lsr(a, n)` on non-negative values: `floor(a / 2^n)` (00_scope.md R7). -/
def lsr (a n : Nat) : Nat := a / 2 ^ n

/-- `tdiv(n, d) = sign(n) * sign(d) * floor(|n| / |d|)`: division rounded toward zero
(00_scope.md R7, 43_compensation.md R105 (e)). -/
def tdiv (n d : Int) : Int := n.sign * d.sign * ((n.natAbs / d.natAbs : Nat) : Int)

/-- `{ACC8[6:0], m}`: the sampled bit shifted into the low end of the accumulator
(40_transport.md R65). -/
def shiftIn (acc : Byte) (m : Bool) : Byte := (acc.extractLsb' 0 7).concat m

/-- `{hi, lo}`: the byte received first is the high byte (20_memory.md R34). -/
def pair (hi lo : Byte) : Pair := hi ++ lo

/-- The `k`-th byte of a record received in order (30_encoding.md R51, R53). The records the block
reads are complete (`Laws.devReadSeq_length`), so the default of `getD` is never used. -/
def byteAt (b : List Byte) (k : Nat) : Byte := b.getD k 0#8

/-- The four raw coefficients, which are written together (42_calibration.md R89, R96). -/
structure Coeffs where
  a0r : BitVec 16
  b1r : BitVec 16
  b2r : BitVec 16
  c12r : BitVec 14
deriving DecidableEq, Repr

/-- `DecodeCal(B[0..7])` (42_calibration.md R89; 30_encoding.md R51, R52). The `c12` word is shifted
on its signed value (92 D12). -/
def decodeCal (b : List Byte) : Coeffs :=
  let w0 := pair (byteAt b 0) (byteAt b 1)
  let w1 := pair (byteAt b 2) (byteAt b 3)
  let w2 := pair (byteAt b 4) (byteAt b 5)
  let w3 := pair (byteAt b 6) (byteAt b 7)
  { a0r := BitVec.ofInt 16 (sext w0)
    b1r := BitVec.ofInt 16 (sext w1)
    b2r := BitVec.ofInt 16 (sext w2)
    c12r := BitVec.ofInt 14 (asr (sext w3) 2) }

/-- The high byte of a pair. -/
def hiByte (w : Pair) : Byte := w.extractLsb' 8 8

/-- The low byte of a pair. -/
def loByte (w : Pair) : Byte := w.extractLsb' 0 8

/-- The inverse of `decodeCal` of 30_encoding.md R54: each word split high byte first, `c12` with
two zero bits below it. The block itself never re-encodes. -/
def encodeCal (c : Coeffs) : List Byte :=
  let w3 : Pair := c.c12r ++ 0#2
  [hiByte c.a0r, loByte c.a0r, hiByte c.b1r, loByte c.b1r,
    hiByte c.b2r, loByte c.b2r, hiByte w3, loByte w3]

/-- A 10-bit sample: `lsr(W, 6) & 0x3FF` (30_encoding.md R53). -/
def sampleOf (w : Pair) : BitVec 10 := BitVec.ofNat 10 (lsr w.toNat 6 &&& 0x3FF)

/-- `elapsed = (now - TSTART) mod 2^NOW_BITS`, unsigned (44_scheduler.md R124). -/
def elapsedMs (now tstart : ClockVal) : Nat := (now - tstart).toNat

/-- Whether a signed value fits the result word in two's complement (30_encoding.md R58). -/
def fitsResult (v : Int) : Bool := decide (-(2 ^ 31) ≤ v ∧ v < 2 ^ 31)

/-- The result word of a signed value, in two's complement (30_encoding.md R58). DESIGN CHOICE
(log 9): a value that does not fit 32 bits, for which the spec states no word, gives a free value that
depends on the value alone. -/
def signedResult (v : Int) : ResultWord :=
  if fitsResult v then BitVec.ofInt 32 v else Config.unfitResult v

end Sys2Proof.Machine
end

