-- ==== Sys2Proof/Machine/Ops.lean ====
section
/-! DEFINITION. The named operations over the state that the meanings share: the primitives of
spec/00_scope.md R8, the exchange (40_transport.md R65), the bracket (41_selector.md R75, R77), the
reads and the write over the wire (20_memory.md R36 to R38), the answers of the command port, the
spec's outcome `refuse` (60_exceptions.md R146), and taking the next command. The block raises no
exception (R140), so there is no exception entry and no return. -/

namespace Sys2Proof.Machine

/-- Append one event to the trace `TR` (10_state.md R24). -/
def emit (e : Event) (s : State) : State := { s with tr := s.tr ++ [e] }

/-- `DIR.p <- d`. -/
def Dirs.set (r : Dirs) (p : Pin) (d : Dir) : Dirs :=
  match p with
  | .din => { r with din := .configured d }
  | .dout => { r with dout := .configured d }
  | .sclk => { r with sclk := .configured d }
  | .csn => { r with csn := .configured d }
  | .shdn => { r with shdn := .configured d }

/-- `LATCH.p <- v`. -/
def Latches.set (l : Latches) (p : OutPin) (v : Bool) : Latches :=
  match p with
  | .dout => { l with dout := v }
  | .sclk => { l with sclk := v }
  | .csn => { l with csn := v }
  | .shdn => { l with shdn := v }

/-- `PinCfg(p, dir)` (00_scope.md R8). -/
def pinCfg (p : Pin) (d : Dir) (s : State) : State :=
  emit (.cfg p d) { s with dir := s.dir.set p d }

/-- `PinWrite(p, v)` (00_scope.md R8). -/
def pinWrite (p : OutPin) (v : Bool) (s : State) : State :=
  emit (.write p v) { s with latch := s.latch.set p v }

/-- `Delay()`: one settle delay; the event is its only result (00_scope.md R8, R171). -/
def delay (s : State) : State := emit .delay s

/-- The bit the data-in oracle gives next: the peripheral's next answer where one is supplied, else
the free value (10_state.md R25; log 3). -/
def nextDinBit (s : State) : Bool := s.din.headD (Config.dinBit s.drawn)

/-- `PinSample(DIN)`: draws one oracle bit, appends `S(m)`, returns it (00_scope.md R8). -/
def pinSample (s : State) : Bool × State :=
  let m := nextDinBit s
  (m, emit (.sample m) { s with din := s.din.tail, drawn := s.drawn + 1 })

/-- `ClockRead()`: the value on `NOW` at this command, appends `Now(v)` (00_scope.md R8). -/
def clockRead (s : State) : ClockVal × State := (s.now, emit (.now s.now) s)

/-- `x[TSTART] <- t` (44_scheduler.md R122). -/
def setTstart (t : ClockVal) (s : State) : State := { s with tstart := t }

/-- `x[SCHED] <- c` (10_state.md R16). -/
def setSched (c : Sched) (s : State) : State := { s with sched := c }

/-- The coefficient registers, written in one transition (42_calibration.md R96). -/
def setCoeffs (c : Coeffs) (s : State) : State :=
  { s with a0r := c.a0r, b1r := c.b1r, b2r := c.b2r, c12r := c.c12r }

/-- The Raw Sample Pair, written in one transition (44_scheduler.md R131). -/
def setSamples (padc tadc : BitVec 10) (s : State) : State := { s with padc := padc, tadc := tadc }

/-- The command completes and returns the result word `RES` (30_encoding.md R55, R58). -/
def complete (res : ResultWord) (s : State) : State := { s with response := .result res }

/-- The command completes with an unspecified result: a fresh free value (43_compensation.md
R118 (a), 93 U6; log 4). -/
def completeFree (s : State) : State :=
  complete (Config.freeResult s.freeDraws) { s with freeDraws := s.freeDraws + 1 }

/-- The command completes with a signed result (30_encoding.md R58); the same value always gives the
same word. -/
def completeSigned (v : Int) (s : State) : State := complete (signedResult v) s

/-- `refuse(reason)` (60_exceptions.md R146): no state of 10_state.md changes, no event, no oracle
bit, no result; the mark is set. DESIGN CHOICE (log 6): the machine goes on. -/
def refuse (r : RefuseReason) (s : State) : State :=
  setRefusedMark { s with response := .refused r }

/-- The precondition `x[INITED] = 1`, else `refuse(NotInitialised)` (60_exceptions.md R146). -/
def whenInited (f : State → State) (s : State) : State :=
  if s.inited then f s else refuse .notInitialised s

/-- The precondition `x[INITED] = 0`, else `refuse(AlreadyInitialised)` (60_exceptions.md R146). -/
def whenNotInited (f : State → State) (s : State) : State :=
  if s.inited then refuse .alreadyInitialised s else f s

/-- One bit cell, seven events: bit `i` of `out` goes out, the sampled bit enters the accumulator
(30_encoding.md R46; 40_transport.md R65). -/
def bitCell (out : Byte) (i : Nat) (acc : Byte) (s : State) : Byte × State :=
  let s1 := delay (pinWrite .dout (out.getLsbD i) s)
  let s2 := delay (pinWrite .sclk true s1)
  let r := pinSample s2
  (shiftIn acc r.1, delay (pinWrite .sclk false r.2))

/-- The bit cells `i = k-1 downto 0` (40_transport.md R65). -/
def bitCells (out : Byte) : Nat → Byte → State → Byte × State
  | 0, acc, s => (acc, s)
  | k + 1, acc, s =>
    let r := bitCell out k acc s
    bitCells out k r.1 r.2

/-- `Exchange(out)`: eight bit cells, most significant bit first, then `DOUT` forced low; returns
the accumulator (40_transport.md R65). It neither reads nor writes `CSN` (R71). -/
def exchange (out : Byte) (s : State) : Byte × State :=
  let r := bitCells out 8 0#8 s
  (r.1, pinWrite .dout false r.2)

/-- `Select()` (41_selector.md R75). -/
def select (s : State) : State := delay (pinWrite .csn false (delay (pinWrite .sclk false s)))

/-- `Deselect()` (41_selector.md R77). One delay, not two (R78). -/
def deselect (s : State) : State :=
  pinWrite .dout false (pinWrite .csn true (delay (pinWrite .sclk false s)))

/-- `MemRead(addr, 1)`: the address exchange, whose response is discarded, then a probe exchange,
whose response is the data (20_memory.md R36). -/
def memRead (p : Params) (addr : Byte) (s : State) : Byte × State :=
  let r := exchange addr s
  exchange p.probe r.2

/-- The pipelined reads of a list of addresses, in order (20_memory.md R37). -/
def readEach (p : Params) : List Byte → State → List Byte × State
  | [], s => ([], s)
  | a :: as, s =>
    let r := memRead p a s
    let q := readEach p as r.2
    (r.1 :: q.1, q.2)

/-- `DevReadSeq(addr[0..n-1])`: the reads, then the trailing exchange with a null byte, whose
response is discarded (20_memory.md R37). -/
def devReadSeq (p : Params) (addrs : List Byte) (s : State) : List Byte × State :=
  let r := readEach p addrs s
  (r.1, (exchange p.nullb r.2).2)

/-- `MemWrite(addr, 1, v)`: two exchanges, both responses discarded (20_memory.md R38). -/
def memWrite (addr v : Byte) (s : State) : State := (exchange v (exchange addr s).2).2

/-- Take the next command the host has presented: its word, and the state with its clock value on
`NOW` (30_encoding.md R55; log 1). None where the host has presented none. -/
def takeCommand (s : State) : Option (CmdWord × State) :=
  match s.port with
  | [] => none
  | c :: rest => some (c.cw, { s with port := rest, now := c.now })

/-- No command presented: the block is idle with all state kept (60_exceptions.md R154). -/
def idle (s : State) : State := s

end Sys2Proof.Machine
end

