-- ==== Sys2Proof/Machine/Params.lean ====
section
/-! DEFINITION. The parameters of the block (spec/00_scope.md R6): the OPEN ones are the constants of
`Config`, about which nothing can be proved but the constraints of R6; the decided ones have the
spec's values (log 7). -/

namespace Sys2Proof.Machine

/-- The parameters of the block. Decided values: `PROBE` = `FLUSH` = `NULLB` = 0x00 (92 D10),
`T0` = 472 and slope 107/20 (92 D17, a placeholder). -/
def params : Params where
  tSettleUs := Config.tSettleUsPred + 1
  hasShdn := Config.hasShdn
  calAddr := Config.calAddr
  addrPHi := Config.addrPHi
  addrPLo := Config.addrPLo
  addrTHi := Config.addrTHi
  addrTLo := Config.addrTLo
  cmdStart := Config.cmdStart
  probe := 0x00#8
  flush := 0x00#8
  nullb := 0x00#8
  convDelayMs := Config.convDelayOver3.val + 3
  pMult := if Config.pMultIs1000 then 1000 else 100
  tMult := (Config.tMultPred : Int) + 1
  t0 := 472
  slopeNum := 107
  slopeDen := 20

/-- The table `CAL_ADDR[0..7]`, in transmit order (20_memory.md R32). -/
def calTable (p : Params) : List Byte :=
  [p.calAddr[0], p.calAddr[1], p.calAddr[2], p.calAddr[3],
    p.calAddr[4], p.calAddr[5], p.calAddr[6], p.calAddr[7]]

/-- The four data addresses in the spec's read order: pressure high, pressure low, temperature high,
temperature low (20_memory.md R40, 92 D11). -/
def dataTable (p : Params) : List Byte := [p.addrPHi, p.addrPLo, p.addrTHi, p.addrTLo]

end Sys2Proof.Machine
end

