-- ==== Sys2Proof/Machine/Calibration.lean ====
section
/-! DEFINITION. Initialisation and the calibration read: the command `INIT`
(spec/42_calibration.md). The decoder `DecodeCal` stands in Machine/Operands.lean. -/

namespace Sys2Proof.Machine

/-- `CALRD`: the calibration read inside its bracket (42_calibration.md R88). -/
def calrd (p : Params) (s : State) : List Byte × State :=
  let r := devReadSeq p (calTable p) (select s)
  (r.1, deselect r.2)

/-- Step 1 of `INIT`: pin configuration (42_calibration.md R85, R86). -/
def configurePins (p : Params) (s : State) : State :=
  let s1 := pinCfg .csn .output (pinCfg .sclk .output (pinCfg .dout .output (pinCfg .din .input s)))
  if p.hasShdn then pinCfg .shdn .output s1 else s1

/-- Steps 2 and 3 of `INIT`: rest deselected, then wake the device (42_calibration.md R85;
41_selector.md R82). -/
def wake (p : Params) (s : State) : State :=
  let s1 := pinWrite .csn true s
  if p.hasShdn then pinWrite .shdn true s1 else s1

/-- The body of `INIT` (42_calibration.md R85), for any parameters. -/
def initBody (p : Params) (s : State) : State :=
  let r := calrd p (wake p (configurePins p s))
  complete 1#32 (setInited (setCoeffs (decodeCal r.1) r.2))

/-- `INIT` (42_calibration.md R85). -/
def execInit (s : State) : Host.Outcome State Fault Refusal :=
  .next (whenNotInited (initBody params) s)

end Sys2Proof.Machine
end

