-- ==== Sys2Proof/Machine/Compensation.lean ====
section
/-! DEFINITION. Compensation Engine: the commands `RDP` and `RDT` (spec/43_compensation.md). -/

namespace Sys2Proof.Machine

/-- `Pcomp22`: the compensated pressure with 22 fraction bits (43_compensation.md R102). -/
def pcomp22 (a0r b1r b2r : BitVec 16) (c12r : BitVec 14) (t p : BitVec 10) : Int :=
  let m1 := sext c12r * zext t
  let s1 := shl (sext b1r) 9 + m1
  let m2 := s1 * zext p
  let m3 := sext b2r * zext t
  shl (sext a0r) 19 + m2 + shl m3 8

/-- `PressureOut(ACC)`: `P_MULT` times kilopascals, one rounding toward zero
(43_compensation.md R107). -/
def pressureOut (p : Params) (acc : Int) : Int :=
  tdiv (p.pMult * (acc * 65 + 214538649600)) 4290772992

/-- `TemperatureOut(T)` (43_compensation.md R111). -/
def temperatureOut (p : Params) (t : BitVec 10) : Int :=
  tdiv (p.tMult * (25 * p.slopeNum + (zext t - p.t0) * p.slopeDen)) p.slopeNum

/-- The body of `RDP` (43_compensation.md R108), for any parameters: any value while
`SAMP_VALID` = 0 (R118 (a)). -/
def rdpBody (p : Params) (s : State) : State :=
  if s.sampValid then
    completeSigned (pressureOut p (pcomp22 s.a0r s.b1r s.b2r s.c12r s.tadc s.padc)) s
  else completeFree s

/-- `RDP` (43_compensation.md R108). -/
def execRdp (s : State) : Host.Outcome State Fault Refusal :=
  .next (whenInited (rdpBody params) s)

/-- The body of `RDT` (43_compensation.md R112), for any parameters: any value while
`SAMP_VALID` = 0 (R118 (a)). -/
def rdtBody (p : Params) (s : State) : State :=
  if s.sampValid then completeSigned (temperatureOut p s.tadc) s else completeFree s

/-- `RDT` (43_compensation.md R112). -/
def execRdt (s : State) : Host.Outcome State Fault Refusal :=
  .next (whenInited (rdtBody params) s)

end Sys2Proof.Machine
end

