-- ==== Sys2Proof/Machine/Scheduler.lean ====
section
/-! DEFINITION. Conversion Scheduler: the command `TICK` (spec/44_scheduler.md). -/

namespace Sys2Proof.Machine

/-- `CONVST`: the start-conversion command inside its bracket (44_scheduler.md R128). -/
def convst (p : Params) (s : State) : State := deselect (memWrite p.cmdStart p.flush (select s))

/-- `CONVRD`: the data read inside its bracket, then the samples, stored after `Deselect`
(44_scheduler.md R130; 90 C9). -/
def convrd (p : Params) (s : State) : State :=
  let r := devReadSeq p (dataTable p) (select s)
  let wp := pair (byteAt r.1 0) (byteAt r.1 1)
  let wt := pair (byteAt r.1 2) (byteAt r.1 3)
  setSampValid (setSamples (sampleOf wp) (sampleOf wt) (deselect r.2))

/-- Arm `StartConversion`: the timestamp is taken first (44_scheduler.md R122, R123). -/
def tickStart (p : Params) (s : State) : State :=
  let r := clockRead s
  setSched .waitToRead (convst p (setTstart r.1 r.2))

/-- Arm `WaitToRead`: `elapsed >= CONV_DELAY_MS` goes to `ReadConversion`, else no change at all
(44_scheduler.md R124). -/
def tickWait (p : Params) (s : State) : State :=
  let r := clockRead s
  if p.convDelayMs ≤ elapsedMs r.1 r.2.tstart then setSched .readConversion r.2 else r.2

/-- Arm `ReadConversion` (44_scheduler.md R126). -/
def tickRead (p : Params) (s : State) : State := setSched .startConversion (convrd p s)

/-- The body of `TICK`: exactly one arm (44_scheduler.md R120), for any parameters. -/
def tickBody (p : Params) (s : State) : State :=
  complete 0#32
    (match s.sched with
    | .startConversion => tickStart p s
    | .waitToRead => tickWait p s
    | .readConversion => tickRead p s)

/-- `TICK` (44_scheduler.md R120). -/
def execTick (s : State) : Host.Outcome State Fault Refusal :=
  .next (whenInited (tickBody params) s)

end Sys2Proof.Machine
end

