-- ==== Sys2Proof/Machine/Selector.lean ====
section
/-! DEFINITION. Device Selector: the commands `SEL` and `DESEL` (spec/41_selector.md). -/

namespace Sys2Proof.Machine

/-- `SEL` (41_selector.md R75). -/
def execSel (s : State) : Host.Outcome State Fault Refusal :=
  .next (whenInited (fun s => complete 0#32 (select s)) s)

/-- `DESEL` (41_selector.md R77). -/
def execDesel (s : State) : Host.Outcome State Fault Refusal :=
  .next (whenInited (fun s => complete 0#32 (deselect s)) s)

end Sys2Proof.Machine
end

