-- ==== Sys2Proof/Machine/Transport.lean ====
section
/-! DEFINITION. Bit-Serial Transport: the command `XCHG` (spec/40_transport.md). -/

namespace Sys2Proof.Machine

/-- The body of `XCHG imm8`: `RES <- zext_8(Exchange(imm8))` (40_transport.md R65). -/
def xchgBody (imm8 : Byte) (s : State) : State :=
  let r := exchange imm8 s
  complete (r.1.setWidth 32) r.2

/-- `XCHG imm8` (40_transport.md R65). -/
def execXchg (imm8 : Byte) (s : State) : Host.Outcome State Fault Refusal :=
  .next (whenInited (xchgBody imm8) s)

end Sys2Proof.Machine
end

