-- ==== Sys2Proof/Machine/Dispatch.lean ====
section
/-! DEFINITION. One arm per host command (spec/30_encoding.md R57). -/

namespace Sys2Proof.Machine

def exec (i : Instr) (s : State) : Host.Outcome State Fault Refusal :=
  match i with
  | .xchg imm8 => Sys2Proof.Machine.execXchg imm8 s
  | .sel => Sys2Proof.Machine.execSel s
  | .desel => Sys2Proof.Machine.execDesel s
  | .init => Sys2Proof.Machine.execInit s
  | .tick => Sys2Proof.Machine.execTick s
  | .rdp => Sys2Proof.Machine.execRdp s
  | .rdt => Sys2Proof.Machine.execRdt s

end Sys2Proof.Machine
end

