-- ==== Sys2Proof/Machine/Step.lean ====
section
/-! DEFINITION. One step: the block takes the next command the host has presented, decodes it and
runs it to completion (spec/10_state.md R15; spec/60_exceptions.md R144, R150). -/

namespace Sys2Proof.Machine

/-- One step. With no command presented the block is idle (60_exceptions.md R154); an illegal word is
refused `IllegalCommand` before anything else is checked (R146). -/
def step (s : State) : Host.Outcome State Fault Refusal :=
  match takeCommand s with
  | none => .next (idle s)
  | some (cw, s1) =>
    match decode cw with
    | .ok i => exec i s1
    | .error _ => .next (refuse .illegalCommand s1)

/-- The state with one more command presented, ahead of the others: the low 12 bits of the word
numbered as spec/opcode_table.json numbers it, with the clock input as it stands (log 1, log 13). -/
def State.withFetchWord (s : State) (nbits w : Nat) : State :=
  { s with port := { cw := BitVec.ofNat 12 (w % 2 ^ nbits), now := s.now } :: s.port }

end Sys2Proof.Machine
end

