-- ==== Sys2Proof/Safety.lean ====
section
/-! DEFINITION. The terms claims are stated in: the oracle bits a command will draw, the events a
command appends (written out from spec/30_encoding.md R46 to R50, not from the meanings), the exact
rational quantities of spec/43_compensation.md, the invariants, and what holds a value. -/

namespace Sys2Proof.Machine

/-! ### The oracle, read ahead -/

/-- The `k`-th bit (from 0) the data-in oracle gives from state `s` on (10_state.md R25). -/
def oracleBit (s : State) (k : Nat) : Bool := (s.din.drop k).headD (Config.dinBit (s.drawn + k))

/-- The response to exchange number `k` (from 0) run from state `s` on: `{m7, .., m0}`, the first
sampled bit is bit 7 (40_transport.md R66). -/
def responseByte (s : State) (k : Nat) : Byte :=
  BitVec.ofBool (oracleBit s (8 * k)) ++ BitVec.ofBool (oracleBit s (8 * k + 1)) ++
    BitVec.ofBool (oracleBit s (8 * k + 2)) ++ BitVec.ofBool (oracleBit s (8 * k + 3)) ++
    BitVec.ofBool (oracleBit s (8 * k + 4)) ++ BitVec.ofBool (oracleBit s (8 * k + 5)) ++
    BitVec.ofBool (oracleBit s (8 * k + 6)) ++ BitVec.ofBool (oracleBit s (8 * k + 7))

/-- The bytes kept by a sequence read of `n` registers: the responses to exchanges 1, 3, .., 2n-1
(20_memory.md R37; 30_encoding.md R50). -/
def keptBytes (s : State) (n : Nat) : List Byte :=
  (List.range n).map fun k => responseByte s (2 * k + 1)

/-! ### The events of a command -/

/-- The seven events of a bit cell (30_encoding.md R46). -/
def cellEvents (b m : Bool) : List Event :=
  [.write .dout b, .delay, .write .sclk true, .delay, .sample m, .write .sclk false, .delay]

/-- The 57 events of a frame: eight cells, most significant bit first, then `W(DOUT, 0)`
(30_encoding.md R47; 40_transport.md R66). -/
def frame (out resp : Byte) : List Event :=
  [7, 6, 5, 4, 3, 2, 1, 0].flatMap (fun i => cellEvents (out.getLsbD i) (resp.getLsbD i))
    ++ [.write .dout false]

/-- The frames of a list of bytes sent, the first being exchange number `k` from `s` on; nothing
stands between frames (30_encoding.md R49). -/
def framesFrom (s : State) : Nat → List Byte → List Event
  | _, [] => []
  | k, b :: bs => frame b (responseByte s k) ++ framesFrom s (k + 1) bs

/-- `W(SCLK,0) D W(CSN,0) D` (30_encoding.md R49). -/
def selectEvents : List Event := [.write .sclk false, .delay, .write .csn false, .delay]

/-- `W(SCLK,0) D W(CSN,1) W(DOUT,0)` (30_encoding.md R49). -/
def deselectEvents : List Event :=
  [.write .sclk false, .delay, .write .csn true, .write .dout false]

/-- The events of a bracket around the frames of the bytes sent (30_encoding.md R49). -/
def bracketEvents (s : State) (sent : List Byte) : List Event :=
  selectEvents ++ framesFrom s 0 sent ++ deselectEvents

/-- The bytes a sequence read sends: each address followed by `PROBE`, then `NULLB`
(30_encoding.md R50). -/
def seqBytes (p : Params) (addrs : List Byte) : List Byte :=
  addrs.flatMap (fun a => [a, p.probe]) ++ [p.nullb]

/-- The events of the pin configuration and the wake of `INIT` (42_calibration.md R85). -/
def setupEvents (p : Params) : List Event :=
  [.cfg .din .input, .cfg .dout .output, .cfg .sclk .output, .cfg .csn .output]
    ++ (if p.hasShdn then [.cfg .shdn .output] else [])
    ++ [.write .csn true]
    ++ (if p.hasShdn then [.write .shdn true] else [])

/-- The directions `INIT` sets (10_state.md R20). -/
def configuredDirs (p : Params) (d : Dirs) : Dirs where
  din := .configured .input
  dout := .configured .output
  sclk := .configured .output
  csn := .configured .output
  shdn := if p.hasShdn then .configured .output else d.shdn

/-- The pins as `DESEL` and every bracket of the block leave them: `CSN` 1, `SCLK` 0, `DOUT` 0
(41_selector.md R80). -/
def restLatches (l : Latches) : Latches := { l with dout := false, sclk := false, csn := true }

/-- The state after work on the wire: `n` more oracle bits drawn, some events appended, the latches
left at `l`; nothing else changed. -/
def afterWire (n : Nat) (evs : List Event) (l : Latches) (s : State) : State :=
  { s with din := s.din.drop n, drawn := s.drawn + n, tr := s.tr ++ evs, latch := l }

/-! ### Counting events -/

/-- The event is a settle delay `D`. -/
def Event.isDelay : Event → Bool
  | .delay => true
  | .cfg _ _ => false
  | .write _ _ => false
  | .sample _ => false
  | .now _ => false

/-- The event is a data-in sample `S(m)`. -/
def Event.isSample : Event → Bool
  | .sample _ => true
  | .cfg _ _ => false
  | .write _ _ => false
  | .delay => false
  | .now _ => false

/-- The event is a write of the output pin `p`. -/
def Event.writes (p : OutPin) : Event → Bool
  | .write q _ => decide (q = p)
  | .cfg _ _ => false
  | .sample _ => false
  | .delay => false
  | .now _ => false

/-- The number of settle delays in a list of events (70_reset_and_hazards.md R170). -/
def settleDelays (evs : List Event) : Nat := evs.countP Event.isDelay

/-- The lower bound on the duration of a list of events, in microseconds: its settle delays times
`T_SETTLE_US` (70_reset_and_hazards.md R170; log 10). -/
def settleTimeUs (p : Params) (evs : List Event) : Nat := settleDelays evs * p.tSettleUs

/-! ### What the wire guarantees to the peripheral -/

/-- Where `SCLK` is, as the events drove it: never driven yet, low, high, or high with `DIN` already
sampled (30_encoding.md R46). -/
inductive Clock where
  | unwritten
  | low
  | high
  | sampled
deriving DecidableEq, Repr

/-- What the peripheral has seen of the wire so far. -/
structure Wire where
  /-- Where the clock is. -/
  clock : Clock
  /-- A settle delay came after the last pin write. -/
  settled : Bool
  /-- A settle delay came after `SCLK` was last driven to 0. -/
  held : Bool
  /-- How many settle delays came after `CSN` was last driven to 0. -/
  sinceSelect : Nat
deriving DecidableEq, Repr

/-- The wire before the first event; no select has to be waited for. -/
def Wire.start : Wire := { clock := .unwritten, settled := false, held := false, sinceSelect := 2 }

/-- One event on the wire, none where it breaks what the frame and the bracket guarantee
(30_encoding.md R48; 40_transport.md R69; 41_selector.md R76): `SCLK` rises only from a settled low
level and two settle delays after a select, falls only after one sample, `DIN` is sampled once per
pulse, one settle delay after the rise; `DOUT` changes, and `CSN` falls, only while `SCLK` is low and at
least one settle delay after its fall; nothing else happens inside a pulse. -/
def Wire.next (w : Wire) : Event → Option Wire
  | .write .sclk true =>
    if w.clock = .low ∧ w.settled = true ∧ 2 ≤ w.sinceSelect then
      some { w with clock := .high, settled := false }
    else none
  | .write .sclk false =>
    if w.clock = .high then none else some { w with clock := .low, settled := false, held := false }
  | .write .csn false =>
    if w.clock = .low ∧ w.held = true then some { w with settled := false, sinceSelect := 0 }
    else none
  | .write .csn true =>
    if w.clock = .low ∨ w.clock = .unwritten then some { w with settled := false } else none
  | .write .dout _ =>
    if w.clock = .low ∧ w.held = true then some { w with settled := false } else none
  | .write .shdn _ =>
    if w.clock = .low ∨ w.clock = .unwritten then some { w with settled := false } else none
  | .sample _ =>
    if w.clock = .high ∧ w.settled = true then some { w with clock := .sampled } else none
  | .delay => some { w with settled := true, held := true, sinceSelect := w.sinceSelect + 1 }
  | .cfg _ _ => if w.clock = .low ∨ w.clock = .unwritten then some w else none
  | .now _ => if w.clock = .low ∨ w.clock = .unwritten then some w else none

/-- A list of events on the wire, none where one of them breaks the discipline. -/
def wireScan : Wire → List Event → Option Wire
  | w, [] => some w
  | w, e :: es =>
    match w.next e with
    | none => none
    | some v => wireScan v es

/-- The wire between commands after `INIT`: `SCLK` low, with a settle delay after its last fall and after
the last select (70_reset_and_hazards.md R172). -/
def Wire.AtRest (w : Wire) : Prop := w.clock = .low ∧ w.held = true ∧ 1 ≤ w.sinceSelect

/-- The wire invariant: the whole trace keeps the discipline, and it leaves the wire at rest, or the
block is not initialised and has never driven `SCLK`. -/
def WireInv (s : State) : Prop :=
  ∃ w, wireScan .start s.tr = some w ∧ (w.AtRest ∨ s.inited = false ∧ w.clock = .unwritten)

/-- Every data-in sample of a list of events lies between a drive of `CSN` to 0 and one back to 1 in that
same list, and none is left open at its end; `sel`: `CSN` was last driven to 0 (41_selector.md R79: the
block's own sequences bracket every exchange). -/
def samplesBracketed : Bool → List Event → Bool
  | sel, [] => !sel
  | _, .write .csn v :: es => samplesBracketed (!v) es
  | sel, .sample _ :: es => sel && samplesBracketed sel es
  | sel, _ :: es => samplesBracketed sel es

/-- Every data-in sample of a list of events is the level `DOUT` was last driven to, `l` before it:
data-out wired to data-in (40_transport.md R67). -/
def loopedBack (l : Bool) : List Event → Bool
  | [] => true
  | .write .dout v :: es => loopedBack v es
  | .sample m :: es => (m == l) && loopedBack l es
  | _ :: es => loopedBack l es

/-! ### The state invariant -/

/-- `LATCH.p`, read by the pin's name. -/
def Latches.get (l : Latches) : OutPin → Bool
  | .dout => l.dout
  | .sclk => l.sclk
  | .csn => l.csn
  | .shdn => l.shdn

/-- The level the trace last drove pin `p` to, none where it never did. -/
def lastWrite (p : OutPin) : List Event → Option Bool
  | [] => none
  | .write q v :: es => (lastWrite p es).or (if q = p then some v else none)
  | _ :: es => lastWrite p es

/-- The directions of a block on which `INIT` has not run (10_state.md R20). -/
def unconfiguredDirs : Dirs :=
  { din := .unconfigured, dout := .unconfigured, sclk := .unconfigured,
    csn := .unconfigured, shdn := .unconfigured }

/-- What holds between commands of every run of a block with parameters `p` (10_state.md R19, R20;
70_reset_and_hazards.md R160, R172). -/
structure Inv (p : Params) (s : State) : Prop where
  /-- Before `INIT` nothing has happened: no event, no oracle bit, no direction, no conversion. -/
  fresh : s.inited = false →
    s.tr = [] ∧ s.drawn = 0 ∧ s.dir = unconfiguredDirs ∧ s.sched = .startConversion ∧
      s.sampValid = false
  /-- After `INIT` the pins are configured and rest at `SCLK` 0, `DOUT` 0, `SHDN` 1. -/
  rest : s.inited = true →
    s.latch.sclk = false ∧ s.latch.dout = false ∧ (p.hasShdn = true → s.latch.shdn = true) ∧
      s.dir = configuredDirs p unconfiguredDirs
  /-- Each latch holds the level last driven. -/
  latched : ∀ (q : OutPin) (v : Bool), lastWrite q s.tr = some v → s.latch.get q = v
  /-- Each oracle bit drawn is a sample in the trace. -/
  sampled : s.tr.countP Event.isSample = s.drawn
  /-- A block without the shutdown pin never drives it. -/
  noShdn : p.hasShdn = false → lastWrite .shdn s.tr = none

/-! ### What holds a value -/

/-- The data registers and latches that a rule has written in no run that leads to `s`, put to 0:
the coefficients and latches before `INIT`, the samples before the first completed read, `TSTART`
before the first start of a conversion, `LATCH.SHDN` where the pin does not exist (10_state.md R26;
70_reset_and_hazards.md R156; 41_selector.md R82). Two states with equal images differ only in
registers that the spec holds as unwritten. -/
def forgetUnwritten (p : Params) (s : State) : State :=
  { s with
    a0r := if s.inited then s.a0r else 0#16
    b1r := if s.inited then s.b1r else 0#16
    b2r := if s.inited then s.b2r else 0#16
    c12r := if s.inited then s.c12r else 0#14
    tadc := if s.sampValid then s.tadc else 0#10
    padc := if s.sampValid then s.padc else 0#10
    tstart := if s.sampValid || decide (s.sched ≠ .startConversion) then s.tstart else 0#32
    latch :=
      { dout := s.inited && s.latch.dout
        sclk := s.inited && s.latch.sclk
        csn := s.inited && s.latch.csn
        shdn := s.inited && p.hasShdn && s.latch.shdn } }

/-! ### The exact quantities of the compensation -/

/-- `a0 = sext_16(x[A0R]) / 8` (10_state.md R11). -/
def a0Value (s : State) : ℚ := (s.a0r.toInt : ℚ) / 8

/-- `b1 = sext_16(x[B1R]) / 8192` (10_state.md R11). -/
def b1Value (s : State) : ℚ := (s.b1r.toInt : ℚ) / 8192

/-- `b2 = sext_16(x[B2R]) / 16384` (10_state.md R11). -/
def b2Value (s : State) : ℚ := (s.b2r.toInt : ℚ) / 16384

/-- `c12 = sext_14(x[C12R]) / 4194304` (10_state.md R11). -/
def c12Value (s : State) : ℚ := (s.c12r.toInt : ℚ) / 4194304

/-- `Pcomp = a0 + (b1 + c12 * Tadc) * Padc + b2 * Tadc`, an exact rational (43_compensation.md
R101). -/
def pcompExact (s : State) : ℚ :=
  a0Value s + (b1Value s + c12Value s * (s.tadc.toNat : ℚ)) * (s.padc.toNat : ℚ)
    + b2Value s * (s.tadc.toNat : ℚ)

/-- `pressure = Pcomp * (115-50)/1023 + 50`, in kilopascals (43_compensation.md R106). -/
def pressureKPa (s : State) : ℚ := pcompExact s * (115 - 50) / 1023 + 50

/-- `temperature = 25 + (Tadc - T0) / slope` with `slope` = `SLOPE_NUM / SLOPE_DEN`
(43_compensation.md R111). -/
def temperatureExact (p : Params) (s : State) : ℚ :=
  25 + ((s.tadc.toNat : ℚ) - (p.t0 : ℚ)) / ((p.slopeNum : ℚ) / (p.slopeDen : ℚ))

/-- A rational rounded toward zero (43_compensation.md R109). -/
def truncToward0 (x : ℚ) : Int := if 0 ≤ x then ⌊x⌋ else ⌈x⌉

/-! ### Sequences of ticks -/

/-- `TICK` with the clock value `now` presented. -/
def tickAt (now : ClockVal) (s : State) : Host.Outcome State Fault Refusal :=
  exec .tick { s with now := now }

/-- `TICK` once for each clock value of the list; none where one stops. -/
def ticks : List ClockVal → State → Option State
  | [], s => some s
  | n :: ns, s =>
    match tickAt n s with
    | .next t => ticks ns t
    | .fault _ => none
    | .refused _ => none

end Sys2Proof.Machine
end

