-- ==== Sys2Proof/Certificates/Slice0/Obligations.lean ====
section
/-! DEFINITION. The statements about the model, one `def Obligations.<Name> : Prop` each; each
docstring names the rule of spec/ it formalises. What a statement takes from the model's own choices
is said in its docstring with the log entry. -/

open Sys2Proof Sys2Proof.Machine

/-! ### Encoding -/

/-- 30_encoding.md R56, R57, R61: each command has one word and each legal word one command; the
round trip in both directions, at every operand. The encoding is the spec's own choice (92 D3). -/
def Obligations.DecodeInvertsEncode : Prop :=
  ∀ (w : CmdWord) (i : Instr), decode w = .ok i ↔ w = encode i

/-- 30_encoding.md R59: a word decodes exactly when its opcode is assigned and its operand is
allowed; an illegal word is refused under the name of what is wrong with it (the spec's own choice,
92 D5). -/
def Obligations.DecodeAcceptsExactlyLegalWords : Prop :=
  ∀ w : CmdWord,
    (CmdWord.legal w = true → ∃ i, decode w = .ok i) ∧
    (CmdWord.opcodeAssigned w = false → decode w = .error (.reservedOpcode (opField w))) ∧
    (CmdWord.opcodeAssigned w = true → CmdWord.operandAllowed w = false →
      decode w = .error (.operandNotZero (opField w) (imm8Field w)))

/-- 30_encoding.md R57, R59, R62: words of the spec's tables (92 D3), decoded. -/
def Obligations.DecodeSpecWords : Prop :=
  decode 0x1A5#12 = .ok (.xchg 0xA5#8) ∧ decode 0x200#12 = .ok .sel ∧
    decode 0x300#12 = .ok .desel ∧ decode 0x400#12 = .ok .init ∧ decode 0x500#12 = .ok .tick ∧
    decode 0x600#12 = .ok .rdp ∧ decode 0x700#12 = .ok .rdt ∧
    decode 0x000#12 = .error (.reservedOpcode 0x0#4) ∧
    decode 0x6FF#12 = .error (.operandNotZero 0x6#4 0xFF#8)

/-! ### The commands: result, completion and frame -/

/-- 40_transport.md R65, R66: `XCHG` returns the next eight oracle bits, first bit on top, and
appends the frame of the byte sent; it leaves `DOUT` and `SCLK` at 0 and nothing else changes. -/
def Obligations.XchgExchangesOneByte : Prop :=
  ∀ (b : Byte) (s : State), s.inited = true →
    encode (.xchg b) = 0x1#4 ++ b ∧
    exec (.xchg b) s =
      .next { s with
        din := s.din.drop 8
        drawn := s.drawn + 8
        tr := s.tr ++ frame b (responseByte s 0)
        latch := { s.latch with dout := false, sclk := false }
        response := .result ((responseByte s 0).setWidth 32) }

/-- 41_selector.md R75: `SEL` drives the clock and the select low with a settle delay after each,
returns 0, and changes nothing else. The next state of a refusal is log 6. -/
def Obligations.SelSelectsDevice : Prop :=
  encode .sel = 0x200#12 ∧ ∀ s : State,
    (s.inited = true → exec .sel s =
      .next { s with
        tr := s.tr ++ [.write .sclk false, .delay, .write .csn false, .delay]
        latch := { s.latch with sclk := false, csn := false }
        response := .result 0#32 }) ∧
    (s.inited = false → exec .sel s =
      .next { s with response := .refused .notInitialised, refusedMark := true })

/-- 41_selector.md R77: `DESEL` drives the clock low, waits a settle delay, drives the select high and
data-out low, returns 0, and changes nothing else. The next state of a refusal is log 6. -/
def Obligations.DeselDeselectsDevice : Prop :=
  encode .desel = 0x300#12 ∧ ∀ s : State,
    (s.inited = true → exec .desel s =
      .next { s with
        tr := s.tr ++ [.write .sclk false, .delay, .write .csn true, .write .dout false]
        latch := { s.latch with sclk := false, csn := true, dout := false }
        response := .result 0#32 }) ∧
    (s.inited = false → exec .desel s =
      .next { s with response := .refused .notInitialised, refusedMark := true })

/-- 42_calibration.md R85, R88: `INIT` configures the pins, rests deselected, wakes the device, runs
the 17 frames of the calibration read in their bracket, decodes the responses to exchanges
1, 3, .., 15, and returns 1. `TADC`, `PADC`, `TSTART`, `SCHED` and `SAMP_VALID` do not change. The
next state of a refusal is log 6. -/
def Obligations.InitReadsCalibration : Prop :=
  encode .init = 0x400#12 ∧ ∀ s : State,
    (s.inited = false → exec .init s =
      .next { s with
        a0r := (decodeCal (keptBytes s 8)).a0r
        b1r := (decodeCal (keptBytes s 8)).b1r
        b2r := (decodeCal (keptBytes s 8)).b2r
        c12r := (decodeCal (keptBytes s 8)).c12r
        inited := true
        dir := configuredDirs params s.dir
        latch :=
          { dout := false, sclk := false, csn := true,
            shdn := if params.hasShdn then true else s.latch.shdn }
        din := s.din.drop 136
        drawn := s.drawn + 136
        tr := s.tr ++ setupEvents params
          ++ bracketEvents s (seqBytes params (calTable params))
        response := .result 1#32 }) ∧
    (s.inited = true → exec .init s =
      .next { s with response := .refused .alreadyInitialised, refusedMark := true })

/-- 42_calibration.md R98 (b), (c): `INIT` with a data-in line stuck at 0 or at 1 leaves every
coefficient 0 or -1, and succeeds. -/
def Obligations.InitWithStuckDataIn : Prop :=
  ∀ (v : Bool) (s : State), s.inited = false → (∀ k < 136, oracleBit s k = v) →
    ∃ t, exec .init s = .next t ∧ t.response = .result 1#32 ∧
      let c : Int := if v then -1 else 0
      t.a0r.toInt = c ∧ t.b1r.toInt = c ∧ t.b2r.toInt = c ∧ t.c12r.toInt = c

/-- 44_scheduler.md R122, R128: `TICK` in `StartConversion` takes the timestamp, sends the start
command and the flush byte in their bracket, and goes to `WaitToRead`. -/
def Obligations.TickStartsConversion : Prop :=
  ∀ s : State, s.inited = true → s.sched = .startConversion → exec .tick s =
    .next { s with
      tstart := s.now
      sched := .waitToRead
      din := s.din.drop 16
      drawn := s.drawn + 16
      tr := s.tr ++ [.now s.now] ++ bracketEvents s [params.cmdStart, params.flush]
      latch := restLatches s.latch
      response := .result 0#32 }

/-- 44_scheduler.md R124: `TICK` in `WaitToRead` reads the clock and touches no pin; it goes to
`ReadConversion` exactly when the elapsed time, modulo 2^32, is at least `CONV_DELAY_MS`. The width of
the clock and the modulus are the spec's own choice (92 D19). -/
def Obligations.TickWaitsForDelay : Prop :=
  ∀ s : State, s.inited = true → s.sched = .waitToRead →
    (params.convDelayMs ≤ (s.now.toNat + (2 ^ 32 - s.tstart.toNat)) % 2 ^ 32 → exec .tick s =
      .next { s with
        sched := .readConversion
        tr := s.tr ++ [.now s.now]
        response := .result 0#32 }) ∧
    ((s.now.toNat + (2 ^ 32 - s.tstart.toNat)) % 2 ^ 32 < params.convDelayMs → exec .tick s =
      .next { s with tr := s.tr ++ [.now s.now], response := .result 0#32 })

/-- 44_scheduler.md R126, R130 and 30_encoding.md R53: `TICK` in `ReadConversion` runs the nine
frames of the data read in their bracket and stores bits [15:6] of the two words received in
exchanges 1, 3 and 5, 7; the clock is not read. -/
def Obligations.TickReadsSamples : Prop :=
  ∀ s : State, s.inited = true → s.sched = .readConversion → exec .tick s =
    .next { s with
      padc := (responseByte s 1 ++ responseByte s 3).extractLsb' 6 10
      tadc := (responseByte s 5 ++ responseByte s 7).extractLsb' 6 10
      sampValid := true
      sched := .startConversion
      din := s.din.drop 72
      drawn := s.drawn + 72
      tr := s.tr ++ bracketEvents s (seqBytes params (dataTable params))
      latch := restLatches s.latch
      response := .result 0#32 }

/-- 60_exceptions.md R146, 44_scheduler.md R120, 40_transport.md R65, 42_calibration.md R95: before
`INIT` every other command is refused, and after it a second `INIT` is; nothing changes but the mark and
the port's answer. That the machine goes on after a refusal is log 6. -/
def Obligations.CommandsRefusedOutsidePrecondition : Prop :=
  encode .tick = 0x500#12 ∧ ∀ (i : Instr) (s : State),
    (i ≠ .init → s.inited = false → exec i s =
      .next { s with response := .refused .notInitialised, refusedMark := true }) ∧
    (i = .init → s.inited = true → exec i s =
      .next { s with response := .refused .alreadyInitialised, refusedMark := true })

/-- 43_compensation.md R108: `RDP` returns `PressureOut(Pcomp22(..))` as a signed 32-bit word, for
every coefficient and sample (it always fits), and writes nothing; before the first completed read it
returns a free value (log 4). The next state of a refusal is log 6. -/
def Obligations.RdpReturnsPressure : Prop :=
  encode .rdp = 0x600#12 ∧ ∀ s : State,
    (s.inited = true → s.sampValid = true → exec .rdp s =
      .next { s with
        response := .result (BitVec.ofInt 32
          (pressureOut params (pcomp22 s.a0r s.b1r s.b2r s.c12r s.tadc s.padc))) }) ∧
    (s.inited = true → s.sampValid = false → exec .rdp s =
      .next { s with
        response := .result (Config.freeResult s.freeDraws)
        freeDraws := s.freeDraws + 1 }) ∧
    (s.inited = false → exec .rdp s =
      .next { s with response := .refused .notInitialised, refusedMark := true })

/-- 43_compensation.md R112: `RDT` returns `TemperatureOut(TADC)` as a signed 32-bit word and writes
nothing; before the first completed read it returns a free value (log 4). A value that does not fit
32 bits, which only a very large `T_MULT` gives, has as its word a free value that depends on that value
alone (the model's choice, log 9). The next state of a refusal is log 6. -/
def Obligations.RdtReturnsTemperature : Prop :=
  encode .rdt = 0x700#12 ∧ ∀ s : State,
    (s.inited = true → s.sampValid = true → exec .rdt s =
      .next { s with
        response := .result
          (if fitsResult (temperatureOut params s.tadc) = true then
            BitVec.ofInt 32 (temperatureOut params s.tadc)
          else Config.unfitResult (temperatureOut params s.tadc)) }) ∧
    (s.inited = true → s.sampValid = false → exec .rdt s =
      .next { s with
        response := .result (Config.freeResult s.freeDraws)
        freeDraws := s.freeDraws + 1 }) ∧
    (s.inited = false → exec .rdt s =
      .next { s with response := .refused .notInitialised, refusedMark := true })

/-! ### The step -/

/-- 30_encoding.md R55, R61: a step takes the oldest command presented, puts its clock value on
`NOW`, and runs the decoded command (the list of commands presented is log 1). -/
def Obligations.StepRunsDecodedCommand : Prop :=
  ∀ (s : State) (c : HostCmd) (rest : List HostCmd) (i : Instr),
    s.port = c :: rest → decode c.cw = .ok i →
    step s = exec i { s with port := rest, now := c.now }

/-- 60_exceptions.md R154, 70_reset_and_hazards.md R157: with no command presented the block is idle
with all state kept. -/
def Obligations.StepIdlesWithoutCommand : Prop :=
  ∀ s : State, s.port = [] → step s = .next s

/-- 60_exceptions.md R140, R147, 10_state.md R25: no state, operand, oracle bit or clock value stops the
machine. Two cases are the model's choice and not those rules: that a refused command answers a next
state and the machine goes on (log 6), and that a step with no command presented is idle (log 1). -/
def Obligations.EveryStepAnswersNextState : Prop :=
  (∀ (i : Instr) (s : State), ∃ t, exec i s = .next t) ∧ ∀ s : State, ∃ t, step s = .next t

/-- 60_exceptions.md R146: what is refused, under which reason and in which order; a refused command
changes nothing but the mark and the port's answer; every other command completes with a result; the
mark stays. That the machine goes on after a refusal is log 6. -/
def Obligations.StepRefusesOnlyAsSpecified : Prop :=
  ∀ (s : State) (c : HostCmd) (rest : List HostCmd), s.port = c :: rest →
    (CmdWord.legal c.cw = false → step s =
      .next { s with
        port := rest, now := c.now, response := .refused .illegalCommand, refusedMark := true }) ∧
    (∀ i, decode c.cw = .ok i → i ≠ .init → s.inited = false → step s =
      .next { s with
        port := rest, now := c.now, response := .refused .notInitialised, refusedMark := true }) ∧
    (decode c.cw = .ok .init → s.inited = true → step s =
      .next { s with
        port := rest, now := c.now, response := .refused .alreadyInitialised,
        refusedMark := true }) ∧
    (∀ i, decode c.cw = .ok i → (i = .init ↔ s.inited = false) →
      ∃ t res, step s = .next t ∧ t.response = .result res ∧ t.refusedMark = s.refusedMark) ∧
    (s.refusedMark = true → ∃ t, step s = .next t ∧ t.refusedMark = true)

/-! ### Reset -/

/-- 10_state.md R26, 70_reset_and_hazards.md R156: the values the spec gives for reset. -/
def Obligations.ResetLeavesSpecifiedValues : Prop :=
  State.reset.sched = .startConversion ∧ State.reset.inited = false ∧
    State.reset.sampValid = false ∧ State.reset.tr = [] ∧
    State.reset.dir = unconfiguredDirs

/-- 10_state.md R19, R20, 30_encoding.md R48: both invariants hold after reset. -/
def Obligations.ResetMeetsInvariants : Prop :=
  Inv params State.reset ∧ WireInv State.reset

/-! ### Invariants and whole-machine rules -/

/-- 10_state.md R19, R20; 41_selector.md R82; 70_reset_and_hazards.md R160, R172: from every state,
a step keeps the state invariant. -/
def Obligations.StepKeepsInvariant : Prop :=
  ∀ s t : State, Inv params s → step s = .next t → Inv params t

/-- 30_encoding.md R48, 40_transport.md R69, 41_selector.md R76: from every state, a step keeps what
the wire guarantees to the peripheral. The clock pulses one at a time and idles low; the outgoing bit is
stable from one settle delay before the rise until at least one settle delay after the fall; data in is
sampled exactly once per pulse, one settle delay after the rise, before the fall; the select falls when
the clock has been low for at least one settle delay, and the clock rises at least two settle delays
after a select. Derived by the spec from R46, R65 and R75. -/
def Obligations.StepKeepsWireDiscipline : Prop :=
  ∀ s t : State, WireInv s → step s = .next t → WireInv t

/-- 10_state.md R26, 70_reset_and_hazards.md R156 ("the access rules make sure no rule computes from
it"): two states that differ only in registers and latches the spec holds as unwritten step to states
that differ only in those. So the model's reset values for them (log 5) reach no answer, no event and
no written register. -/
def Obligations.UnwrittenRegistersReachNothing : Prop :=
  ∀ s t s' t' : State, forgetUnwritten params s = forgetUnwritten params t →
    step s = .next s' → step t = .next t' →
    forgetUnwritten params s' = forgetUnwritten params t'

/-- 10_state.md R27: which command may write which state, extend the trace or draw from the oracle. A
command that the table does not name keeps it; this holds for refused commands too. -/
def Obligations.CommandsWriteOnlyTheirState : Prop :=
  ∀ (i : Instr) (s t : State), exec i s = .next t →
    (i ≠ .init →
      t.a0r = s.a0r ∧ t.b1r = s.b1r ∧ t.b2r = s.b2r ∧ t.c12r = s.c12r ∧ t.inited = s.inited ∧
        t.dir = s.dir ∧ t.latch.shdn = s.latch.shdn) ∧
    (¬(i = .tick ∧ s.sched = .readConversion) →
      t.tadc = s.tadc ∧ t.padc = s.padc ∧ t.sampValid = s.sampValid) ∧
    (¬(i = .tick ∧ s.sched = .startConversion) → t.tstart = s.tstart) ∧
    (i ≠ .tick → t.sched = s.sched) ∧
    (∀ b, i = .xchg b → t.latch.csn = s.latch.csn) ∧
    (i = .sel → t.latch.dout = s.latch.dout) ∧
    ((i = .rdp ∨ i = .rdt ∨ (i = .tick ∧ s.sched = .waitToRead)) → t.latch = s.latch) ∧
    ((i = .sel ∨ i = .desel ∨ i = .rdp ∨ i = .rdt ∨ (i = .tick ∧ s.sched = .waitToRead)) →
      t.drawn = s.drawn ∧ t.din = s.din) ∧
    ((i = .rdp ∨ i = .rdt) → t.tr = s.tr) ∧
    t.port = s.port ∧ t.now = s.now

/-- 44_scheduler.md R131: the two samples are written together, by `TICK` in `ReadConversion` and by
nothing else. -/
def Obligations.SamplePairIsAtomic : Prop :=
  ∀ (i : Instr) (s t : State), exec i s = .next t →
    (t.padc = s.padc ∧ t.tadc = s.tadc) ∨
    (i = .tick ∧ s.inited = true ∧ s.sched = .readConversion ∧
      t.padc = (responseByte s 1 ++ responseByte s 3).extractLsb' 6 10 ∧
      t.tadc = (responseByte s 5 ++ responseByte s 7).extractLsb' 6 10)

/-- 10_state.md R11, 42_calibration.md R95: once `INIT` has completed, no step changes the
coefficients, and `INITED` stays. -/
def Obligations.CoefficientsSetOnce : Prop :=
  ∀ s t : State, s.inited = true → step s = .next t →
    t.inited = true ∧ t.a0r = s.a0r ∧ t.b1r = s.b1r ∧ t.b2r = s.b2r ∧ t.c12r = s.c12r

/-- 10_state.md R17, 60_exceptions.md R146: no step clears a mark. -/
def Obligations.MarksNeverCleared : Prop :=
  ∀ s t : State, step s = .next t →
    (s.inited = true → t.inited = true) ∧ (s.sampValid = true → t.sampValid = true) ∧
      (s.refusedMark = true → t.refusedMark = true)

/-- 41_selector.md R82: a step only adds events to the trace, and writes `SHDN` only in the one `INIT`
that initialises a block that has the pin, and only to 1. -/
def Obligations.ShutdownPinOnlyWokenOnce : Prop :=
  ∀ s t : State, step s = .next t → ∃ evs, t.tr = s.tr ++ evs ∧
    ∀ v, Event.write .shdn v ∈ evs →
      v = true ∧ params.hasShdn = true ∧ s.inited = false ∧ t.inited = true

/-- 41_selector.md R80, 70_reset_and_hazards.md R172: no command but `SEL` leaves the device selected
that found it deselected, and one `DESEL` undoes any number of `SEL`. -/
def Obligations.OnlySelLeavesSelected : Prop :=
  ∀ (i : Instr) (s t : State), exec i s = .next t →
    (s.latch.csn = true → t.latch.csn = false → i = .sel) ∧
    (s.inited = true → i = .desel → t.latch.csn = true)

/-- 41_selector.md R79: every data-in sample that `INIT` or `TICK` takes comes after a drive of `CSN` to 0
and before a drive back to 1 in the same command, and the command leaves no bracket open. -/
def Obligations.OwnSequencesAreBracketed : Prop :=
  ∀ (i : Instr) (s t : State) (evs : List Event), i = .init ∨ i = .tick →
    exec i s = .next t → t.tr = s.tr ++ evs → samplesBracketed false evs = true

/-- 41_selector.md R83, 42_calibration.md R98, 70_reset_and_hazards.md R170: how many events each
command appends, its lower bound on time in settle delays, and how many oracle bits it draws. -/
def Obligations.CommandsEmitSpecifiedCounts : Prop :=
  ∀ (i : Instr) (s t : State) (evs : List Event),
    exec i s = .next t → t.tr = s.tr ++ evs →
    let counts := (evs.length, settleTimeUs params evs, evs.countP Event.isSample)
    let u := params.tSettleUs
    (s.inited = true →
      (∀ b, i = .xchg b → counts = (57, 24 * u, 8)) ∧
      (i = .sel → counts = (4, 2 * u, 0)) ∧
      (i = .desel → counts = (4, 1 * u, 0)) ∧
      (i = .tick → s.sched = .startConversion → counts = (123, 51 * u, 16)) ∧
      (i = .tick → s.sched = .waitToRead → counts = (1, 0, 0)) ∧
      (i = .tick → s.sched = .readConversion → counts = (521, 219 * u, 72)) ∧
      (i = .rdp ∨ i = .rdt ∨ i = .init → counts = (0, 0, 0))) ∧
    (s.inited = false →
      (i = .init → counts = (if params.hasShdn then 984 else 982, 411 * u, 136)) ∧
      (i ≠ .init → counts = (0, 0, 0)))

/-- 30_encoding.md R46, R47: cell number `c` of a frame carries bit `7 - c` of the byte sent and of the
byte received in its seven events; after cell 7 comes `W(DOUT, 0)`. A frame is 57 events, of which 24
are delays, 8 samples, 9 writes of `DOUT` and 16 writes of `SCLK`. -/
def Obligations.FrameLayoutCounts : Prop :=
  ∀ out resp : Byte,
    (∀ c < 8, ((frame out resp).drop (7 * c)).take 7 =
      [.write .dout (out.getLsbD (7 - c)), .delay, .write .sclk true, .delay,
        .sample (resp.getLsbD (7 - c)), .write .sclk false, .delay]) ∧
      (frame out resp).drop 56 = [.write .dout false] ∧
      (frame out resp).length = 57 ∧ (frame out resp).countP Event.isDelay = 24 ∧
      (frame out resp).countP Event.isSample = 8 ∧
      (frame out resp).countP (Event.writes .dout) = 9 ∧
      (frame out resp).countP (Event.writes .sclk) = 16

/-- 40_transport.md R67: with data-out wired to data-in, `XCHG b` returns `b`, for every `b`. The
premise is on the events of the exchange: every sample is the level `DOUT` was last driven to. -/
def Obligations.LoopbackReturnsByteSent : Prop :=
  ∀ (b : Byte) (s t : State) (evs : List Event), s.inited = true →
    exec (.xchg b) s = .next t → t.tr = s.tr ++ evs → loopedBack s.latch.dout evs = true →
    t.response = .result (b.setWidth 32)

/-! ### Records -/

/-- 42_calibration.md R90: each 16-bit pair is read as two's complement, high byte first; a raw value of
0x8000 or more is negative, for `c12` too, and 0xFFFF is -1 in every position. -/
def Obligations.CoefficientPairsAreSigned : Prop :=
  ∀ b0 b1 b2 b3 b4 b5 b6 b7 : Byte,
    let word := fun hi lo : Byte => (hi.toNat * 256 + lo.toNat : Int)
    let signed := fun w : Int => if w ≥ 0x8000 then w - 65536 else w
    let c := decodeCal [b0, b1, b2, b3, b4, b5, b6, b7]
    c.a0r.toInt = signed (word b0 b1) ∧ c.b1r.toInt = signed (word b2 b3) ∧
      c.b2r.toInt = signed (word b4 b5) ∧ (c.c12r.toInt < 0 ↔ word b6 b7 ≥ 0x8000) ∧
      (word b6 b7 = 0xFFFF → c.c12r.toInt = -1)

/-- 42_calibration.md R91: the `c12` word is shifted right by two bits on its signed value, toward minus
infinity. That the shift is arithmetic is the spec's own choice (92 D12). -/
def Obligations.C12ShiftsSignedWord : Prop :=
  ∀ b0 b1 b2 b3 b4 b5 b6 b7 : Byte,
    let w : Int := b6.toNat * 256 + b7.toNat
    let signed := if w ≥ 0x8000 then w - 65536 else w
    let c := (decodeCal [b0, b1, b2, b3, b4, b5, b6, b7]).c12r.toInt
    4 * c ≤ signed ∧ signed < 4 * c + 4

/-- 30_encoding.md R54, 42_calibration.md R97: decoding then re-encoding gives back the bytes, the last
one with its two low bits cleared; re-encoding then decoding gives back every coefficient. -/
def Obligations.CalibrationRoundTrips : Prop :=
  (∀ b0 b1 b2 b3 b4 b5 b6 b7 : Byte,
    encodeCal (decodeCal [b0, b1, b2, b3, b4, b5, b6, b7]) =
      [b0, b1, b2, b3, b4, b5, b6, b7 &&& 0xFC#8]) ∧
  ∀ c : Coeffs, decodeCal (encodeCal c) = c

/-- 30_encoding.md R53: a sample is the upper ten bits of the big-endian word, unsigned. -/
def Obligations.SampleIsUpperTenBits : Prop :=
  ∀ hi lo : Byte,
    (sampleOf (pair hi lo)).toNat = (hi.toNat * 256 + lo.toNat) / 64 ∧
      sampleOf (pair hi lo) = (pair hi lo).extractLsb' 6 10

/-! ### The compensation -/

/-- 00_scope.md R7, 43_compensation.md R105 (e): `tdiv` is the exact quotient rounded toward zero, and
its remainder is smaller than the divisor and has the sign of the dividend or is 0. -/
def Obligations.TdivRoundsTowardZero : Prop :=
  ∀ n d : Int, d ≠ 0 →
    tdiv n d = truncToward0 ((n : ℚ) / (d : ℚ)) ∧
      |n - d * tdiv n d| < |d| ∧ 0 ≤ n * (n - d * tdiv n d)

/-- 43_compensation.md R101, R102, R103: the fixed-point data path is the exact formula. The data path is
the spec's own choice (92 D14), and that it equals the formula is derived by the spec. -/
def Obligations.DataPathIsExactFormula : Prop :=
  ∀ s : State,
    (pcomp22 s.a0r s.b1r s.b2r s.c12r s.tadc s.padc : ℚ) / 2 ^ 22 = pcompExact s

/-- 43_compensation.md R104: the range of `ACC`, both ends attained. -/
def Obligations.AccumulatorRange : Prop :=
  (∀ (a0r b1r b2r : BitVec 16) (c12r : BitVec 14) (t p : BitVec 10),
    -51497672704 ≤ pcomp22 a0r b1r b2r c12r t p ∧ pcomp22 a0r b1r b2r c12r t p ≤ 51495316223) ∧
  pcomp22 0x8000#16 0x8000#16 0x8000#16 0x2000#14 1023#10 1023#10 = -51497672704 ∧
  pcomp22 0x7FFF#16 0x7FFF#16 0x7FFF#16 0x1FFF#14 1023#10 1023#10 = 51495316223

/-- 43_compensation.md R110: the range of the pressure result for both multipliers, both ends attained,
and its range while `Pcomp` is on the device scale. -/
def Obligations.PressureResultRange : Prop :=
  ∀ (q : Params) (a0r b1r b2r : BitVec 16) (c12r : BitVec 14) (t p : BitVec 10),
    let acc := pcomp22 a0r b1r b2r c12r t p
    let lo := pcomp22 0x8000#16 0x8000#16 0x8000#16 0x2000#14 1023#10 1023#10
    let hi := pcomp22 0x7FFF#16 0x7FFF#16 0x7FFF#16 0x1FFF#14 1023#10 1023#10
    (q.pMult = 100 → -73012 ≤ pressureOut q acc ∧ pressureOut q acc ≤ 83009 ∧
      pressureOut q lo = -73012 ∧ pressureOut q hi = 83009) ∧
    (q.pMult = 1000 → -730127 ≤ pressureOut q acc ∧ pressureOut q acc ≤ 830091 ∧
      pressureOut q lo = -730127 ∧ pressureOut q hi = 830091) ∧
    (0 ≤ acc → acc ≤ 1023 * 2 ^ 22 →
      (q.pMult = 100 → 5000 ≤ pressureOut q acc ∧ pressureOut q acc ≤ 11500) ∧
      (q.pMult = 1000 → 50000 ≤ pressureOut q acc ∧ pressureOut q acc ≤ 115000))

/-- 43_compensation.md R101, R106, R107, R109: after a completed read, the word `RDP` returns is, as a
signed number, `P_MULT` times the exact pressure in kilopascals of the source's formula, rounded once
toward zero; no other state changes. The rounding is the spec's own choice (92 D15). -/
def Obligations.RdpIsExactPressureTruncated : Prop :=
  ∀ s : State, s.inited = true → s.sampValid = true → ∃ w : ResultWord,
    exec .rdp s = .next { s with response := .result w } ∧
      w.toInt = truncToward0 ((params.pMult : ℚ) * pressureKPa s)

/-- 43_compensation.md R111: `TemperatureOut` is `T_MULT` times the exact linear formula, rounded once
toward zero, for every set of parameters that R6 allows and every sample. The rounding is the spec's own
choice (92 D15). -/
def Obligations.TemperatureIsExactFormulaTruncated : Prop :=
  ∀ (p : Params) (s : State), p.wf = true →
    temperatureOut p s.tadc = truncToward0 ((p.tMult : ℚ) * temperatureExact p s)

/-- 43_compensation.md R118 (b), (c), (d): with all coefficients 0 the pressure is 50 kPa for every
sample pair; with both samples 0 the accumulator is `A0R << 19`; at `TADC` = `T0` the temperature is
25. -/
def Obligations.CompensationCorners : Prop :=
  ∀ (q : Params) (a0r b1r b2r : BitVec 16) (c12r : BitVec 14) (t p : BitVec 10),
    pressureOut q (pcomp22 0#16 0#16 0#16 0#14 t p) = 50 * q.pMult ∧
    pcomp22 a0r b1r b2r c12r 0#10 0#10 = a0r.toInt * 2 ^ 19 ∧
    (q.slopeNum ≠ 0 → (t.toNat : Int) = q.t0 → temperatureOut q t = 25 * q.tMult)

/-- 10_state.md R14, 43_compensation.md R115: after a completed read, `RDT` is a function of `TADC` and
`RDP` of the sample pair and the coefficients: two states that agree on those answer the same word,
whatever else differs (the scheduler, the pins, the inputs, the reads before), and nothing else changes.
So a second read changes nothing, for every set of parameters. For a temperature outside 32 bits the
word itself is the model's choice, a free value (log 9). -/
def Obligations.ReadsAreRepeatable : Prop :=
  ∀ s t : State, s.inited = true → t.inited = true → s.sampValid = true → t.sampValid = true →
    s.tadc = t.tadc →
    (∃ w, exec .rdt s = .next { s with response := .result w } ∧
      exec .rdt t = .next { t with response := .result w }) ∧
    (s.padc = t.padc → s.a0r = t.a0r → s.b1r = t.b1r → s.b2r = t.b2r → s.c12r = t.c12r →
      ∃ w, exec .rdp s = .next { s with response := .result w } ∧
        exec .rdp t = .next { t with response := .result w }) ∧
    ∀ p : Params, rdpBody p (rdpBody p s) = rdpBody p s ∧ rdtBody p (rdtBody p s) = rdtBody p s

/-! ### The scheduler -/

/-- 44_scheduler.md R125: any number of ticks before the delay has elapsed change nothing but the trace,
which gains one `Now` event each (and the inputs and answer of the command port). Derived by the spec
from R124, with the modulus of 92 D19. -/
def Obligations.EarlyTicksChangeNothing : Prop :=
  ∀ (ns : List ClockVal) (n : ClockVal) (s : State), s.inited = true → s.sched = .waitToRead →
    (∀ m ∈ ns ++ [n], (m.toNat + (2 ^ 32 - s.tstart.toNat)) % 2 ^ 32 < params.convDelayMs) →
    ticks (ns ++ [n]) s =
      some { s with
        now := n
        tr := s.tr ++ (ns ++ [n]).map Event.now
        response := .result 0#32 }

/-- 44_scheduler.md R127: from `StartConversion`, with `w` ticks that find the delay not yet elapsed,
`ReadConversion` is reached after exactly `2 + w` ticks (each tick before leaves `WaitToRead`), and the
next tick completes the read and is back in `StartConversion` with fresh samples, whatever the oracle
answers and the last clock value is. Derived by the spec from R120 to R126, with the modulus of
92 D19. -/
def Obligations.TicksReachTheRead : Prop :=
  ∀ (start ready last : ClockVal) (early : List ClockVal) (s : State),
    s.inited = true → s.sched = .startConversion →
    (∀ m ∈ early, (m.toNat + (2 ^ 32 - start.toNat)) % 2 ^ 32 < params.convDelayMs) →
    params.convDelayMs ≤ (ready.toNat + (2 ^ 32 - start.toNat)) % 2 ^ 32 →
    (∀ k, ∃ v, ticks (start :: early.take k) s = some v ∧ v.sched = .waitToRead) ∧
    ∃ t u : State, ticks (start :: early ++ [ready]) s = some t ∧ t.sched = .readConversion ∧
      t.tadc = s.tadc ∧ t.padc = s.padc ∧ t.tstart = start ∧
      tickAt last t = .next u ∧ u.sched = .startConversion ∧ u.sampValid = true ∧
      u.tadc = (responseByte t 5 ++ responseByte t 7).extractLsb' 6 10 ∧
      u.padc = (responseByte t 1 ++ responseByte t 3).extractLsb' 6 10 ∧
      u.refusedMark = s.refusedMark
end

