-- ==== Sys2Proof/Laws/Arith.lean ====
section
/-! SUPPORT. The arithmetic of the block in plain terms: the elapsed time, the samples, the truncating
division, the constraints on the parameters. -/

namespace Sys2Proof.Machine

/-- The elapsed time as a number (44_scheduler.md R124, R136). -/
theorem elapsedMs_eq (now tstart : ClockVal) :
    elapsedMs now tstart = (now.toNat + (2 ^ 32 - tstart.toNat)) % 2 ^ 32 := by
  simp [elapsedMs, BitVec.toNat_sub, Nat.add_comm]

/-- A big-endian pair as a number (20_memory.md R34). -/
theorem pair_toNat (hi lo : Byte) : (pair hi lo).toNat = hi.toNat * 256 + lo.toNat := by
  have h := lo.isLt
  rw [pair, BitVec.toNat_append, ← Nat.shiftLeft_add_eq_or_of_lt h, Nat.shiftLeft_eq]

/-- A sample as a number (30_encoding.md R53). -/
theorem sampleOf_toNat (w : Pair) : (sampleOf w).toNat = w.toNat / 64 := by
  have h := w.isLt
  rw [sampleOf, lsr, show (0x3FF : Nat) = 2 ^ 10 - 1 from rfl, Nat.and_two_pow_sub_one_eq_mod,
    BitVec.toNat_ofNat]
  omega

/-- `tdiv` is the library's division rounded toward zero. -/
theorem tdiv_eq (n d : Int) : tdiv n d = n.tdiv d := by
  have key : ∀ a b : Nat, (a : Int).sign * (b : Int).sign * ((a / b : Nat) : Int) = (a / b : Nat) := by
    intro a b
    rcases Nat.eq_zero_or_pos a with rfl | ha
    · simp
    rcases Nat.eq_zero_or_pos b with rfl | hb
    · simp
    rw [Int.sign_eq_one_of_pos (by omega), Int.sign_eq_one_of_pos (by omega)]
    simp
  obtain ⟨a, rfl | rfl⟩ := n.eq_nat_or_neg <;> obtain ⟨b, rfl | rfl⟩ := d.eq_nat_or_neg <;>
    simp only [tdiv, Int.natAbs_neg, Int.natAbs_natCast, Int.sign_neg, Int.neg_tdiv, Int.tdiv_neg,
      Int.neg_mul, Int.mul_neg, Int.neg_neg, key, ← Int.ofNat_tdiv]

/-- Every constraint of 00_scope.md R6 holds of the block's parameters. -/
theorem params_wf : params.wf = true := by
  have h := Config.convDelayOver3.isLt
  have hd : 3 ≤ Config.convDelayOver3.val + 3 ∧ Config.convDelayOver3.val + 3 ≤ 10 := by omega
  have ht : 0 < (Config.tMultPred : Int) + 1 := by omega
  simp [Params.wf, params, hd, ht]

end Sys2Proof.Machine
end

