-- ==== Sys2Proof/Laws/Events.lean ====
section
/-! SUPPORT. The lists of events a command appends: how the scans of Safety.lean run over an appended
list, and what a frame, a run of frames and a bracket are to each scan. -/

namespace Sys2Proof.Machine

/-- Two ways to write the events a command appended are the same list. -/
theorem appended_unique {old new es evs : List Event} (h1 : new = old ++ es) (h2 : new = old ++ evs) :
    evs = es := by
  rw [h1] at h2
  exact (List.append_cancel_left h2).symm

/-! ### The wire discipline -/

/-- A list scanned in two parts. -/
theorem wireScan_append {w v : Wire} {es : List Event} (fs : List Event)
    (h : wireScan w es = some v) : wireScan w (es ++ fs) = wireScan v fs := by
  induction es generalizing w with
  | nil =>
    cases h
    rfl
  | cons e es ih =>
    simp only [wireScan, List.cons_append] at h ⊢
    cases hn : w.next e with
    | none =>
      rw [hn] at h
      cases h
    | some u =>
      rw [hn] at h
      exact ih h

/-- Events that take a wire at rest to a wire at rest. -/
def KeepsWire (es : List Event) : Prop :=
  ∀ w : Wire, w.AtRest → ∃ v, wireScan w es = some v ∧ v.AtRest

theorem KeepsWire.append {es fs : List Event} (h : KeepsWire es) (h' : KeepsWire fs) :
    KeepsWire (es ++ fs) := fun w hw => by
  obtain ⟨v, hv, hr⟩ := h w hw
  rw [wireScan_append fs hv]
  exact h' v hr

theorem keepsWire_nil : KeepsWire [] := fun w hw => ⟨w, rfl, hw⟩

theorem keepsWire_now (t : ClockVal) : KeepsWire [.now t] := fun w hw =>
  ⟨w, by simp [wireScan, Wire.next, hw.1], hw⟩

/-- A bit cell: one pulse with one sample (30_encoding.md R46, R48). -/
theorem keepsWire_cell (b m : Bool) : KeepsWire (cellEvents b m) := by
  rintro ⟨clock, settled, held, n⟩ ⟨rfl, rfl, hn⟩
  exact ⟨⟨.low, true, true, n + 1 + 1 + 1⟩, by simp [cellEvents, wireScan, Wire.next, hn],
    rfl, rfl, by simp⟩

/-- The closing event of a frame. -/
theorem keepsWire_close : KeepsWire [.write .dout false] := by
  rintro ⟨clock, settled, held, n⟩ ⟨rfl, rfl, hn⟩
  exact ⟨⟨.low, false, true, n⟩, by simp [wireScan, Wire.next], rfl, rfl, hn⟩

theorem keepsWire_frame (out resp : Byte) : KeepsWire (frame out resp) := by
  unfold frame
  refine KeepsWire.append ?_ keepsWire_close
  generalize [7, 6, 5, 4, 3, 2, 1, 0] = l
  induction l with
  | nil => exact keepsWire_nil
  | cons i l ih => exact (keepsWire_cell _ _).append ih

theorem keepsWire_framesFrom (s : State) (k : Nat) (sent : List Byte) :
    KeepsWire (framesFrom s k sent) := by
  induction sent generalizing k with
  | nil => exact keepsWire_nil
  | cons b bs ih => exact (keepsWire_frame _ _).append (ih _)

/-- A select brings any wire outside a pulse to rest (41_selector.md R76). -/
theorem wireScan_select {w : Wire} (hw : w.clock = .low ∨ w.clock = .unwritten) :
    ∃ v, wireScan w selectEvents = some v ∧ v.AtRest := by
  refine ⟨⟨.low, true, true, 1⟩, ?_, rfl, rfl, Nat.le_refl 1⟩
  rcases hw with h | h <;> simp [selectEvents, wireScan, Wire.next, h]

theorem keepsWire_select : KeepsWire selectEvents := fun _ hw => wireScan_select (.inl hw.1)

theorem keepsWire_deselect : KeepsWire deselectEvents := by
  rintro ⟨clock, settled, held, n⟩ ⟨rfl, rfl, hn⟩
  exact ⟨⟨.low, false, true, n + 1⟩, by simp [deselectEvents, wireScan, Wire.next], rfl, rfl,
    by simp⟩

/-- A bracket brings any wire outside a pulse to rest. -/
theorem wireScan_bracket {w : Wire} (hw : w.clock = .low ∨ w.clock = .unwritten) (s : State)
    (sent : List Byte) : ∃ v, wireScan w (bracketEvents s sent) = some v ∧ v.AtRest := by
  obtain ⟨v, hv, hr⟩ := wireScan_select hw
  rw [bracketEvents, List.append_assoc, wireScan_append _ hv]
  exact (keepsWire_framesFrom s 0 sent).append keepsWire_deselect v hr

theorem keepsWire_bracket (s : State) (sent : List Byte) : KeepsWire (bracketEvents s sent) :=
  fun _ hw => wireScan_bracket (.inl hw.1) s sent

/-- The set-up of `INIT` and its bracket bring any wire outside a pulse to rest (42_calibration.md
R85). -/
theorem wireScan_setup_bracket {w : Wire} (hw : w.clock = .low ∨ w.clock = .unwritten) (p : Params)
    (s : State) (sent : List Byte) :
    ∃ v, wireScan w (setupEvents p ++ bracketEvents s sent) = some v ∧ v.AtRest := by
  have h : wireScan w (setupEvents p) = some { w with settled := false } := by
    cases hs : p.hasShdn <;> rcases hw with hc | hc <;>
      simp [setupEvents, hs, wireScan, Wire.next, hc]
  rw [wireScan_append _ h]
  exact wireScan_bracket hw s sent

/-! ### Counts -/

/-- Length, delays and samples of a run of frames (41_selector.md R83). -/
theorem framesFrom_counts (s : State) (k : Nat) (sent : List Byte) :
    (framesFrom s k sent).length = 57 * sent.length ∧
      (framesFrom s k sent).countP Event.isDelay = 24 * sent.length ∧
      (framesFrom s k sent).countP Event.isSample = 8 * sent.length := by
  induction sent generalizing k with
  | nil => exact ⟨rfl, rfl, rfl⟩
  | cons b bs ih =>
    obtain ⟨h1, h2, h3⟩ := ih (k + 1)
    have f1 : (frame b (responseByte s k)).length = 57 := rfl
    have f2 : (frame b (responseByte s k)).countP Event.isDelay = 24 := rfl
    have f3 : (frame b (responseByte s k)).countP Event.isSample = 8 := rfl
    simp only [framesFrom, List.length_append, List.countP_append, h1, h2, h3, f1, f2, f3,
      List.length_cons]
    omega

/-- Length, delays and samples of a bracket (41_selector.md R83). -/
theorem bracketEvents_counts (s : State) (sent : List Byte) :
    (bracketEvents s sent).length = 57 * sent.length + 8 ∧
      (bracketEvents s sent).countP Event.isDelay = 24 * sent.length + 3 ∧
      (bracketEvents s sent).countP Event.isSample = 8 * sent.length := by
  obtain ⟨h1, h2, h3⟩ := framesFrom_counts s 0 sent
  simp [bracketEvents, h1, h2, h3, selectEvents, deselectEvents, Event.isDelay, Event.isSample,
    List.countP_cons]

/-! ### The last write of a pin -/

theorem lastWrite_append (p : OutPin) (es fs : List Event) :
    lastWrite p (es ++ fs) = (lastWrite p fs).or (lastWrite p es) := by
  induction es with
  | nil => simp [lastWrite]
  | cons e es ih => cases e <;> simp [lastWrite, ih, Option.or_assoc]

/-- A frame leaves the clock and data-out at 0 and drives nothing else (40_transport.md R65). -/
theorem lastWrite_frame (out resp : Byte) :
    lastWrite .sclk (frame out resp) = some false ∧ lastWrite .dout (frame out resp) = some false ∧
      lastWrite .csn (frame out resp) = none ∧ lastWrite .shdn (frame out resp) = none :=
  ⟨rfl, rfl, rfl, rfl⟩

/-- A bracket leaves the pins at rest and does not drive `SHDN` (41_selector.md R80). -/
theorem lastWrite_bracket (s : State) (sent : List Byte) :
    lastWrite .sclk (bracketEvents s sent) = some false ∧
      lastWrite .dout (bracketEvents s sent) = some false ∧
      lastWrite .csn (bracketEvents s sent) = some true ∧
      lastWrite .shdn (bracketEvents s sent) = none := by
  have hf : ∀ k, lastWrite .shdn (framesFrom s k sent) = none := by
    induction sent with
    | nil => exact fun _ => rfl
    | cons b bs ih =>
      intro k
      rw [framesFrom, lastWrite_append, ih, (lastWrite_frame _ _).2.2.2]
      rfl
  refine ⟨?_, ?_, ?_, ?_⟩ <;> simp only [bracketEvents, lastWrite_append]
  · rfl
  · rfl
  · rfl
  · rw [hf]
    rfl

/-- A bracket holds no write of `SHDN`. -/
theorem shdn_notMem_bracket (s : State) (sent : List Byte) (v : Bool) :
    Event.write .shdn v ∉ bracketEvents s sent := by
  have hf : ∀ k, Event.write .shdn v ∉ framesFrom s k sent := by
    induction sent with
    | nil => simp [framesFrom]
    | cons b bs ih => simp [framesFrom, ih, frame, cellEvents]
  simp [bracketEvents, hf, selectEvents, deselectEvents]

/-! ### Samples inside brackets -/

theorem samplesBracketed_bracket (s : State) (sent : List Byte) (sel : Bool) :
    samplesBracketed sel (bracketEvents s sent) = true := by
  have hf : ∀ k fs,
      samplesBracketed true (framesFrom s k sent ++ fs) = samplesBracketed true fs := by
    induction sent with
    | nil => exact fun _ _ => rfl
    | cons b bs ih =>
      intro k fs
      rw [framesFrom, List.append_assoc]
      have h : ∀ gs, samplesBracketed true (frame b (responseByte s k) ++ gs) =
          samplesBracketed true gs := fun gs => by simp [frame, cellEvents, samplesBracketed]
      rw [h, ih]
  have h : samplesBracketed sel (bracketEvents s sent) =
      samplesBracketed true (framesFrom s 0 sent ++ deselectEvents) := by
    simp [bracketEvents, selectEvents, samplesBracketed]
  rw [h, hf]
  simp [deselectEvents, samplesBracketed]

end Sys2Proof.Machine
end

