-- ==== Sys2Proof/Laws/State.lean ====
section
/-! SUPPORT. One lemma per field per update of the state, true by unfolding the update. -/

namespace Sys2Proof.Machine

/-! ### `emit` -/

@[simp] theorem emit_a0r (e : Event) (s : State) : (emit e s).a0r = s.a0r := rfl
@[simp] theorem emit_b1r (e : Event) (s : State) : (emit e s).b1r = s.b1r := rfl
@[simp] theorem emit_b2r (e : Event) (s : State) : (emit e s).b2r = s.b2r := rfl
@[simp] theorem emit_c12r (e : Event) (s : State) : (emit e s).c12r = s.c12r := rfl
@[simp] theorem emit_tadc (e : Event) (s : State) : (emit e s).tadc = s.tadc := rfl
@[simp] theorem emit_padc (e : Event) (s : State) : (emit e s).padc = s.padc := rfl
@[simp] theorem emit_tstart (e : Event) (s : State) : (emit e s).tstart = s.tstart := rfl
@[simp] theorem emit_sched (e : Event) (s : State) : (emit e s).sched = s.sched := rfl
@[simp] theorem emit_inited (e : Event) (s : State) : (emit e s).inited = s.inited := rfl
@[simp] theorem emit_sampValid (e : Event) (s : State) : (emit e s).sampValid = s.sampValid := rfl
@[simp] theorem emit_latch (e : Event) (s : State) : (emit e s).latch = s.latch := rfl
@[simp] theorem emit_dir (e : Event) (s : State) : (emit e s).dir = s.dir := rfl
@[simp] theorem emit_tr (e : Event) (s : State) : (emit e s).tr = s.tr ++ [e] := rfl
@[simp] theorem emit_refusedMark (e : Event) (s : State) : (emit e s).refusedMark = s.refusedMark := rfl
@[simp] theorem emit_response (e : Event) (s : State) : (emit e s).response = s.response := rfl
@[simp] theorem emit_port (e : Event) (s : State) : (emit e s).port = s.port := rfl
@[simp] theorem emit_now (e : Event) (s : State) : (emit e s).now = s.now := rfl
@[simp] theorem emit_din (e : Event) (s : State) : (emit e s).din = s.din := rfl
@[simp] theorem emit_drawn (e : Event) (s : State) : (emit e s).drawn = s.drawn := rfl
@[simp] theorem emit_freeDraws (e : Event) (s : State) : (emit e s).freeDraws = s.freeDraws := rfl

/-! ### `pinCfg` -/

@[simp] theorem pinCfg_a0r (p : Pin) (d : Dir) (s : State) : (pinCfg p d s).a0r = s.a0r := rfl
@[simp] theorem pinCfg_b1r (p : Pin) (d : Dir) (s : State) : (pinCfg p d s).b1r = s.b1r := rfl
@[simp] theorem pinCfg_b2r (p : Pin) (d : Dir) (s : State) : (pinCfg p d s).b2r = s.b2r := rfl
@[simp] theorem pinCfg_c12r (p : Pin) (d : Dir) (s : State) : (pinCfg p d s).c12r = s.c12r := rfl
@[simp] theorem pinCfg_tadc (p : Pin) (d : Dir) (s : State) : (pinCfg p d s).tadc = s.tadc := rfl
@[simp] theorem pinCfg_padc (p : Pin) (d : Dir) (s : State) : (pinCfg p d s).padc = s.padc := rfl
@[simp] theorem pinCfg_tstart (p : Pin) (d : Dir) (s : State) : (pinCfg p d s).tstart = s.tstart := rfl
@[simp] theorem pinCfg_sched (p : Pin) (d : Dir) (s : State) : (pinCfg p d s).sched = s.sched := rfl
@[simp] theorem pinCfg_inited (p : Pin) (d : Dir) (s : State) : (pinCfg p d s).inited = s.inited := rfl
@[simp] theorem pinCfg_sampValid (p : Pin) (d : Dir) (s : State) : (pinCfg p d s).sampValid = s.sampValid := rfl
@[simp] theorem pinCfg_latch (p : Pin) (d : Dir) (s : State) : (pinCfg p d s).latch = s.latch := rfl
@[simp] theorem pinCfg_dir (p : Pin) (d : Dir) (s : State) : (pinCfg p d s).dir = s.dir.set p d := rfl
@[simp] theorem pinCfg_tr (p : Pin) (d : Dir) (s : State) : (pinCfg p d s).tr = s.tr ++ [.cfg p d] := rfl
@[simp] theorem pinCfg_refusedMark (p : Pin) (d : Dir) (s : State) : (pinCfg p d s).refusedMark = s.refusedMark := rfl
@[simp] theorem pinCfg_response (p : Pin) (d : Dir) (s : State) : (pinCfg p d s).response = s.response := rfl
@[simp] theorem pinCfg_port (p : Pin) (d : Dir) (s : State) : (pinCfg p d s).port = s.port := rfl
@[simp] theorem pinCfg_now (p : Pin) (d : Dir) (s : State) : (pinCfg p d s).now = s.now := rfl
@[simp] theorem pinCfg_din (p : Pin) (d : Dir) (s : State) : (pinCfg p d s).din = s.din := rfl
@[simp] theorem pinCfg_drawn (p : Pin) (d : Dir) (s : State) : (pinCfg p d s).drawn = s.drawn := rfl
@[simp] theorem pinCfg_freeDraws (p : Pin) (d : Dir) (s : State) : (pinCfg p d s).freeDraws = s.freeDraws := rfl

/-! ### `pinWrite` -/

@[simp] theorem pinWrite_a0r (p : OutPin) (v : Bool) (s : State) : (pinWrite p v s).a0r = s.a0r := rfl
@[simp] theorem pinWrite_b1r (p : OutPin) (v : Bool) (s : State) : (pinWrite p v s).b1r = s.b1r := rfl
@[simp] theorem pinWrite_b2r (p : OutPin) (v : Bool) (s : State) : (pinWrite p v s).b2r = s.b2r := rfl
@[simp] theorem pinWrite_c12r (p : OutPin) (v : Bool) (s : State) : (pinWrite p v s).c12r = s.c12r := rfl
@[simp] theorem pinWrite_tadc (p : OutPin) (v : Bool) (s : State) : (pinWrite p v s).tadc = s.tadc := rfl
@[simp] theorem pinWrite_padc (p : OutPin) (v : Bool) (s : State) : (pinWrite p v s).padc = s.padc := rfl
@[simp] theorem pinWrite_tstart (p : OutPin) (v : Bool) (s : State) : (pinWrite p v s).tstart = s.tstart := rfl
@[simp] theorem pinWrite_sched (p : OutPin) (v : Bool) (s : State) : (pinWrite p v s).sched = s.sched := rfl
@[simp] theorem pinWrite_inited (p : OutPin) (v : Bool) (s : State) : (pinWrite p v s).inited = s.inited := rfl
@[simp] theorem pinWrite_sampValid (p : OutPin) (v : Bool) (s : State) : (pinWrite p v s).sampValid = s.sampValid := rfl
@[simp] theorem pinWrite_latch (p : OutPin) (v : Bool) (s : State) : (pinWrite p v s).latch = s.latch.set p v := rfl
@[simp] theorem pinWrite_dir (p : OutPin) (v : Bool) (s : State) : (pinWrite p v s).dir = s.dir := rfl
@[simp] theorem pinWrite_tr (p : OutPin) (v : Bool) (s : State) : (pinWrite p v s).tr = s.tr ++ [.write p v] := rfl
@[simp] theorem pinWrite_refusedMark (p : OutPin) (v : Bool) (s : State) : (pinWrite p v s).refusedMark = s.refusedMark := rfl
@[simp] theorem pinWrite_response (p : OutPin) (v : Bool) (s : State) : (pinWrite p v s).response = s.response := rfl
@[simp] theorem pinWrite_port (p : OutPin) (v : Bool) (s : State) : (pinWrite p v s).port = s.port := rfl
@[simp] theorem pinWrite_now (p : OutPin) (v : Bool) (s : State) : (pinWrite p v s).now = s.now := rfl
@[simp] theorem pinWrite_din (p : OutPin) (v : Bool) (s : State) : (pinWrite p v s).din = s.din := rfl
@[simp] theorem pinWrite_drawn (p : OutPin) (v : Bool) (s : State) : (pinWrite p v s).drawn = s.drawn := rfl
@[simp] theorem pinWrite_freeDraws (p : OutPin) (v : Bool) (s : State) : (pinWrite p v s).freeDraws = s.freeDraws := rfl

/-! ### `delay` -/

@[simp] theorem delay_a0r (s : State) : (delay s).a0r = s.a0r := rfl
@[simp] theorem delay_b1r (s : State) : (delay s).b1r = s.b1r := rfl
@[simp] theorem delay_b2r (s : State) : (delay s).b2r = s.b2r := rfl
@[simp] theorem delay_c12r (s : State) : (delay s).c12r = s.c12r := rfl
@[simp] theorem delay_tadc (s : State) : (delay s).tadc = s.tadc := rfl
@[simp] theorem delay_padc (s : State) : (delay s).padc = s.padc := rfl
@[simp] theorem delay_tstart (s : State) : (delay s).tstart = s.tstart := rfl
@[simp] theorem delay_sched (s : State) : (delay s).sched = s.sched := rfl
@[simp] theorem delay_inited (s : State) : (delay s).inited = s.inited := rfl
@[simp] theorem delay_sampValid (s : State) : (delay s).sampValid = s.sampValid := rfl
@[simp] theorem delay_latch (s : State) : (delay s).latch = s.latch := rfl
@[simp] theorem delay_dir (s : State) : (delay s).dir = s.dir := rfl
@[simp] theorem delay_tr (s : State) : (delay s).tr = s.tr ++ [.delay] := rfl
@[simp] theorem delay_refusedMark (s : State) : (delay s).refusedMark = s.refusedMark := rfl
@[simp] theorem delay_response (s : State) : (delay s).response = s.response := rfl
@[simp] theorem delay_port (s : State) : (delay s).port = s.port := rfl
@[simp] theorem delay_now (s : State) : (delay s).now = s.now := rfl
@[simp] theorem delay_din (s : State) : (delay s).din = s.din := rfl
@[simp] theorem delay_drawn (s : State) : (delay s).drawn = s.drawn := rfl
@[simp] theorem delay_freeDraws (s : State) : (delay s).freeDraws = s.freeDraws := rfl

/-! ### `pinSample` -/

@[simp] theorem pinSample_a0r (s : State) : (pinSample s).2.a0r = s.a0r := rfl
@[simp] theorem pinSample_b1r (s : State) : (pinSample s).2.b1r = s.b1r := rfl
@[simp] theorem pinSample_b2r (s : State) : (pinSample s).2.b2r = s.b2r := rfl
@[simp] theorem pinSample_c12r (s : State) : (pinSample s).2.c12r = s.c12r := rfl
@[simp] theorem pinSample_tadc (s : State) : (pinSample s).2.tadc = s.tadc := rfl
@[simp] theorem pinSample_padc (s : State) : (pinSample s).2.padc = s.padc := rfl
@[simp] theorem pinSample_tstart (s : State) : (pinSample s).2.tstart = s.tstart := rfl
@[simp] theorem pinSample_sched (s : State) : (pinSample s).2.sched = s.sched := rfl
@[simp] theorem pinSample_inited (s : State) : (pinSample s).2.inited = s.inited := rfl
@[simp] theorem pinSample_sampValid (s : State) : (pinSample s).2.sampValid = s.sampValid := rfl
@[simp] theorem pinSample_latch (s : State) : (pinSample s).2.latch = s.latch := rfl
@[simp] theorem pinSample_dir (s : State) : (pinSample s).2.dir = s.dir := rfl
@[simp] theorem pinSample_tr (s : State) : (pinSample s).2.tr = s.tr ++ [.sample (nextDinBit s)] := rfl
@[simp] theorem pinSample_refusedMark (s : State) : (pinSample s).2.refusedMark = s.refusedMark := rfl
@[simp] theorem pinSample_response (s : State) : (pinSample s).2.response = s.response := rfl
@[simp] theorem pinSample_port (s : State) : (pinSample s).2.port = s.port := rfl
@[simp] theorem pinSample_now (s : State) : (pinSample s).2.now = s.now := rfl
@[simp] theorem pinSample_din (s : State) : (pinSample s).2.din = s.din.tail := rfl
@[simp] theorem pinSample_drawn (s : State) : (pinSample s).2.drawn = s.drawn + 1 := rfl
@[simp] theorem pinSample_freeDraws (s : State) : (pinSample s).2.freeDraws = s.freeDraws := rfl

/-! ### `clockRead` -/

@[simp] theorem clockRead_a0r (s : State) : (clockRead s).2.a0r = s.a0r := rfl
@[simp] theorem clockRead_b1r (s : State) : (clockRead s).2.b1r = s.b1r := rfl
@[simp] theorem clockRead_b2r (s : State) : (clockRead s).2.b2r = s.b2r := rfl
@[simp] theorem clockRead_c12r (s : State) : (clockRead s).2.c12r = s.c12r := rfl
@[simp] theorem clockRead_tadc (s : State) : (clockRead s).2.tadc = s.tadc := rfl
@[simp] theorem clockRead_padc (s : State) : (clockRead s).2.padc = s.padc := rfl
@[simp] theorem clockRead_tstart (s : State) : (clockRead s).2.tstart = s.tstart := rfl
@[simp] theorem clockRead_sched (s : State) : (clockRead s).2.sched = s.sched := rfl
@[simp] theorem clockRead_inited (s : State) : (clockRead s).2.inited = s.inited := rfl
@[simp] theorem clockRead_sampValid (s : State) : (clockRead s).2.sampValid = s.sampValid := rfl
@[simp] theorem clockRead_latch (s : State) : (clockRead s).2.latch = s.latch := rfl
@[simp] theorem clockRead_dir (s : State) : (clockRead s).2.dir = s.dir := rfl
@[simp] theorem clockRead_tr (s : State) : (clockRead s).2.tr = s.tr ++ [.now s.now] := rfl
@[simp] theorem clockRead_refusedMark (s : State) : (clockRead s).2.refusedMark = s.refusedMark := rfl
@[simp] theorem clockRead_response (s : State) : (clockRead s).2.response = s.response := rfl
@[simp] theorem clockRead_port (s : State) : (clockRead s).2.port = s.port := rfl
@[simp] theorem clockRead_now (s : State) : (clockRead s).2.now = s.now := rfl
@[simp] theorem clockRead_din (s : State) : (clockRead s).2.din = s.din := rfl
@[simp] theorem clockRead_drawn (s : State) : (clockRead s).2.drawn = s.drawn := rfl
@[simp] theorem clockRead_freeDraws (s : State) : (clockRead s).2.freeDraws = s.freeDraws := rfl

/-! ### `setTstart` -/

@[simp] theorem setTstart_a0r (t : ClockVal) (s : State) : (setTstart t s).a0r = s.a0r := rfl
@[simp] theorem setTstart_b1r (t : ClockVal) (s : State) : (setTstart t s).b1r = s.b1r := rfl
@[simp] theorem setTstart_b2r (t : ClockVal) (s : State) : (setTstart t s).b2r = s.b2r := rfl
@[simp] theorem setTstart_c12r (t : ClockVal) (s : State) : (setTstart t s).c12r = s.c12r := rfl
@[simp] theorem setTstart_tadc (t : ClockVal) (s : State) : (setTstart t s).tadc = s.tadc := rfl
@[simp] theorem setTstart_padc (t : ClockVal) (s : State) : (setTstart t s).padc = s.padc := rfl
@[simp] theorem setTstart_tstart (t : ClockVal) (s : State) : (setTstart t s).tstart = t := rfl
@[simp] theorem setTstart_sched (t : ClockVal) (s : State) : (setTstart t s).sched = s.sched := rfl
@[simp] theorem setTstart_inited (t : ClockVal) (s : State) : (setTstart t s).inited = s.inited := rfl
@[simp] theorem setTstart_sampValid (t : ClockVal) (s : State) : (setTstart t s).sampValid = s.sampValid := rfl
@[simp] theorem setTstart_latch (t : ClockVal) (s : State) : (setTstart t s).latch = s.latch := rfl
@[simp] theorem setTstart_dir (t : ClockVal) (s : State) : (setTstart t s).dir = s.dir := rfl
@[simp] theorem setTstart_tr (t : ClockVal) (s : State) : (setTstart t s).tr = s.tr := rfl
@[simp] theorem setTstart_refusedMark (t : ClockVal) (s : State) : (setTstart t s).refusedMark = s.refusedMark := rfl
@[simp] theorem setTstart_response (t : ClockVal) (s : State) : (setTstart t s).response = s.response := rfl
@[simp] theorem setTstart_port (t : ClockVal) (s : State) : (setTstart t s).port = s.port := rfl
@[simp] theorem setTstart_now (t : ClockVal) (s : State) : (setTstart t s).now = s.now := rfl
@[simp] theorem setTstart_din (t : ClockVal) (s : State) : (setTstart t s).din = s.din := rfl
@[simp] theorem setTstart_drawn (t : ClockVal) (s : State) : (setTstart t s).drawn = s.drawn := rfl
@[simp] theorem setTstart_freeDraws (t : ClockVal) (s : State) : (setTstart t s).freeDraws = s.freeDraws := rfl

/-! ### `setSched` -/

@[simp] theorem setSched_a0r (c : Sched) (s : State) : (setSched c s).a0r = s.a0r := rfl
@[simp] theorem setSched_b1r (c : Sched) (s : State) : (setSched c s).b1r = s.b1r := rfl
@[simp] theorem setSched_b2r (c : Sched) (s : State) : (setSched c s).b2r = s.b2r := rfl
@[simp] theorem setSched_c12r (c : Sched) (s : State) : (setSched c s).c12r = s.c12r := rfl
@[simp] theorem setSched_tadc (c : Sched) (s : State) : (setSched c s).tadc = s.tadc := rfl
@[simp] theorem setSched_padc (c : Sched) (s : State) : (setSched c s).padc = s.padc := rfl
@[simp] theorem setSched_tstart (c : Sched) (s : State) : (setSched c s).tstart = s.tstart := rfl
@[simp] theorem setSched_sched (c : Sched) (s : State) : (setSched c s).sched = c := rfl
@[simp] theorem setSched_inited (c : Sched) (s : State) : (setSched c s).inited = s.inited := rfl
@[simp] theorem setSched_sampValid (c : Sched) (s : State) : (setSched c s).sampValid = s.sampValid := rfl
@[simp] theorem setSched_latch (c : Sched) (s : State) : (setSched c s).latch = s.latch := rfl
@[simp] theorem setSched_dir (c : Sched) (s : State) : (setSched c s).dir = s.dir := rfl
@[simp] theorem setSched_tr (c : Sched) (s : State) : (setSched c s).tr = s.tr := rfl
@[simp] theorem setSched_refusedMark (c : Sched) (s : State) : (setSched c s).refusedMark = s.refusedMark := rfl
@[simp] theorem setSched_response (c : Sched) (s : State) : (setSched c s).response = s.response := rfl
@[simp] theorem setSched_port (c : Sched) (s : State) : (setSched c s).port = s.port := rfl
@[simp] theorem setSched_now (c : Sched) (s : State) : (setSched c s).now = s.now := rfl
@[simp] theorem setSched_din (c : Sched) (s : State) : (setSched c s).din = s.din := rfl
@[simp] theorem setSched_drawn (c : Sched) (s : State) : (setSched c s).drawn = s.drawn := rfl
@[simp] theorem setSched_freeDraws (c : Sched) (s : State) : (setSched c s).freeDraws = s.freeDraws := rfl

/-! ### `setCoeffs` -/

@[simp] theorem setCoeffs_a0r (c : Coeffs) (s : State) : (setCoeffs c s).a0r = c.a0r := rfl
@[simp] theorem setCoeffs_b1r (c : Coeffs) (s : State) : (setCoeffs c s).b1r = c.b1r := rfl
@[simp] theorem setCoeffs_b2r (c : Coeffs) (s : State) : (setCoeffs c s).b2r = c.b2r := rfl
@[simp] theorem setCoeffs_c12r (c : Coeffs) (s : State) : (setCoeffs c s).c12r = c.c12r := rfl
@[simp] theorem setCoeffs_tadc (c : Coeffs) (s : State) : (setCoeffs c s).tadc = s.tadc := rfl
@[simp] theorem setCoeffs_padc (c : Coeffs) (s : State) : (setCoeffs c s).padc = s.padc := rfl
@[simp] theorem setCoeffs_tstart (c : Coeffs) (s : State) : (setCoeffs c s).tstart = s.tstart := rfl
@[simp] theorem setCoeffs_sched (c : Coeffs) (s : State) : (setCoeffs c s).sched = s.sched := rfl
@[simp] theorem setCoeffs_inited (c : Coeffs) (s : State) : (setCoeffs c s).inited = s.inited := rfl
@[simp] theorem setCoeffs_sampValid (c : Coeffs) (s : State) : (setCoeffs c s).sampValid = s.sampValid := rfl
@[simp] theorem setCoeffs_latch (c : Coeffs) (s : State) : (setCoeffs c s).latch = s.latch := rfl
@[simp] theorem setCoeffs_dir (c : Coeffs) (s : State) : (setCoeffs c s).dir = s.dir := rfl
@[simp] theorem setCoeffs_tr (c : Coeffs) (s : State) : (setCoeffs c s).tr = s.tr := rfl
@[simp] theorem setCoeffs_refusedMark (c : Coeffs) (s : State) : (setCoeffs c s).refusedMark = s.refusedMark := rfl
@[simp] theorem setCoeffs_response (c : Coeffs) (s : State) : (setCoeffs c s).response = s.response := rfl
@[simp] theorem setCoeffs_port (c : Coeffs) (s : State) : (setCoeffs c s).port = s.port := rfl
@[simp] theorem setCoeffs_now (c : Coeffs) (s : State) : (setCoeffs c s).now = s.now := rfl
@[simp] theorem setCoeffs_din (c : Coeffs) (s : State) : (setCoeffs c s).din = s.din := rfl
@[simp] theorem setCoeffs_drawn (c : Coeffs) (s : State) : (setCoeffs c s).drawn = s.drawn := rfl
@[simp] theorem setCoeffs_freeDraws (c : Coeffs) (s : State) : (setCoeffs c s).freeDraws = s.freeDraws := rfl

/-! ### `setSamples` -/

@[simp] theorem setSamples_a0r (p t : BitVec 10) (s : State) : (setSamples p t s).a0r = s.a0r := rfl
@[simp] theorem setSamples_b1r (p t : BitVec 10) (s : State) : (setSamples p t s).b1r = s.b1r := rfl
@[simp] theorem setSamples_b2r (p t : BitVec 10) (s : State) : (setSamples p t s).b2r = s.b2r := rfl
@[simp] theorem setSamples_c12r (p t : BitVec 10) (s : State) : (setSamples p t s).c12r = s.c12r := rfl
@[simp] theorem setSamples_tadc (p t : BitVec 10) (s : State) : (setSamples p t s).tadc = t := rfl
@[simp] theorem setSamples_padc (p t : BitVec 10) (s : State) : (setSamples p t s).padc = p := rfl
@[simp] theorem setSamples_tstart (p t : BitVec 10) (s : State) : (setSamples p t s).tstart = s.tstart := rfl
@[simp] theorem setSamples_sched (p t : BitVec 10) (s : State) : (setSamples p t s).sched = s.sched := rfl
@[simp] theorem setSamples_inited (p t : BitVec 10) (s : State) : (setSamples p t s).inited = s.inited := rfl
@[simp] theorem setSamples_sampValid (p t : BitVec 10) (s : State) : (setSamples p t s).sampValid = s.sampValid := rfl
@[simp] theorem setSamples_latch (p t : BitVec 10) (s : State) : (setSamples p t s).latch = s.latch := rfl
@[simp] theorem setSamples_dir (p t : BitVec 10) (s : State) : (setSamples p t s).dir = s.dir := rfl
@[simp] theorem setSamples_tr (p t : BitVec 10) (s : State) : (setSamples p t s).tr = s.tr := rfl
@[simp] theorem setSamples_refusedMark (p t : BitVec 10) (s : State) : (setSamples p t s).refusedMark = s.refusedMark := rfl
@[simp] theorem setSamples_response (p t : BitVec 10) (s : State) : (setSamples p t s).response = s.response := rfl
@[simp] theorem setSamples_port (p t : BitVec 10) (s : State) : (setSamples p t s).port = s.port := rfl
@[simp] theorem setSamples_now (p t : BitVec 10) (s : State) : (setSamples p t s).now = s.now := rfl
@[simp] theorem setSamples_din (p t : BitVec 10) (s : State) : (setSamples p t s).din = s.din := rfl
@[simp] theorem setSamples_drawn (p t : BitVec 10) (s : State) : (setSamples p t s).drawn = s.drawn := rfl
@[simp] theorem setSamples_freeDraws (p t : BitVec 10) (s : State) : (setSamples p t s).freeDraws = s.freeDraws := rfl

/-! ### `setInited` -/

@[simp] theorem setInited_a0r (s : State) : (setInited s).a0r = s.a0r := rfl
@[simp] theorem setInited_b1r (s : State) : (setInited s).b1r = s.b1r := rfl
@[simp] theorem setInited_b2r (s : State) : (setInited s).b2r = s.b2r := rfl
@[simp] theorem setInited_c12r (s : State) : (setInited s).c12r = s.c12r := rfl
@[simp] theorem setInited_tadc (s : State) : (setInited s).tadc = s.tadc := rfl
@[simp] theorem setInited_padc (s : State) : (setInited s).padc = s.padc := rfl
@[simp] theorem setInited_tstart (s : State) : (setInited s).tstart = s.tstart := rfl
@[simp] theorem setInited_sched (s : State) : (setInited s).sched = s.sched := rfl
@[simp] theorem setInited_inited (s : State) : (setInited s).inited = true := rfl
@[simp] theorem setInited_sampValid (s : State) : (setInited s).sampValid = s.sampValid := rfl
@[simp] theorem setInited_latch (s : State) : (setInited s).latch = s.latch := rfl
@[simp] theorem setInited_dir (s : State) : (setInited s).dir = s.dir := rfl
@[simp] theorem setInited_tr (s : State) : (setInited s).tr = s.tr := rfl
@[simp] theorem setInited_refusedMark (s : State) : (setInited s).refusedMark = s.refusedMark := rfl
@[simp] theorem setInited_response (s : State) : (setInited s).response = s.response := rfl
@[simp] theorem setInited_port (s : State) : (setInited s).port = s.port := rfl
@[simp] theorem setInited_now (s : State) : (setInited s).now = s.now := rfl
@[simp] theorem setInited_din (s : State) : (setInited s).din = s.din := rfl
@[simp] theorem setInited_drawn (s : State) : (setInited s).drawn = s.drawn := rfl
@[simp] theorem setInited_freeDraws (s : State) : (setInited s).freeDraws = s.freeDraws := rfl

/-! ### `setSampValid` -/

@[simp] theorem setSampValid_a0r (s : State) : (setSampValid s).a0r = s.a0r := rfl
@[simp] theorem setSampValid_b1r (s : State) : (setSampValid s).b1r = s.b1r := rfl
@[simp] theorem setSampValid_b2r (s : State) : (setSampValid s).b2r = s.b2r := rfl
@[simp] theorem setSampValid_c12r (s : State) : (setSampValid s).c12r = s.c12r := rfl
@[simp] theorem setSampValid_tadc (s : State) : (setSampValid s).tadc = s.tadc := rfl
@[simp] theorem setSampValid_padc (s : State) : (setSampValid s).padc = s.padc := rfl
@[simp] theorem setSampValid_tstart (s : State) : (setSampValid s).tstart = s.tstart := rfl
@[simp] theorem setSampValid_sched (s : State) : (setSampValid s).sched = s.sched := rfl
@[simp] theorem setSampValid_inited (s : State) : (setSampValid s).inited = s.inited := rfl
@[simp] theorem setSampValid_sampValid (s : State) : (setSampValid s).sampValid = true := rfl
@[simp] theorem setSampValid_latch (s : State) : (setSampValid s).latch = s.latch := rfl
@[simp] theorem setSampValid_dir (s : State) : (setSampValid s).dir = s.dir := rfl
@[simp] theorem setSampValid_tr (s : State) : (setSampValid s).tr = s.tr := rfl
@[simp] theorem setSampValid_refusedMark (s : State) : (setSampValid s).refusedMark = s.refusedMark := rfl
@[simp] theorem setSampValid_response (s : State) : (setSampValid s).response = s.response := rfl
@[simp] theorem setSampValid_port (s : State) : (setSampValid s).port = s.port := rfl
@[simp] theorem setSampValid_now (s : State) : (setSampValid s).now = s.now := rfl
@[simp] theorem setSampValid_din (s : State) : (setSampValid s).din = s.din := rfl
@[simp] theorem setSampValid_drawn (s : State) : (setSampValid s).drawn = s.drawn := rfl
@[simp] theorem setSampValid_freeDraws (s : State) : (setSampValid s).freeDraws = s.freeDraws := rfl

/-! ### `setRefusedMark` -/

@[simp] theorem setRefusedMark_a0r (s : State) : (setRefusedMark s).a0r = s.a0r := rfl
@[simp] theorem setRefusedMark_b1r (s : State) : (setRefusedMark s).b1r = s.b1r := rfl
@[simp] theorem setRefusedMark_b2r (s : State) : (setRefusedMark s).b2r = s.b2r := rfl
@[simp] theorem setRefusedMark_c12r (s : State) : (setRefusedMark s).c12r = s.c12r := rfl
@[simp] theorem setRefusedMark_tadc (s : State) : (setRefusedMark s).tadc = s.tadc := rfl
@[simp] theorem setRefusedMark_padc (s : State) : (setRefusedMark s).padc = s.padc := rfl
@[simp] theorem setRefusedMark_tstart (s : State) : (setRefusedMark s).tstart = s.tstart := rfl
@[simp] theorem setRefusedMark_sched (s : State) : (setRefusedMark s).sched = s.sched := rfl
@[simp] theorem setRefusedMark_inited (s : State) : (setRefusedMark s).inited = s.inited := rfl
@[simp] theorem setRefusedMark_sampValid (s : State) : (setRefusedMark s).sampValid = s.sampValid := rfl
@[simp] theorem setRefusedMark_latch (s : State) : (setRefusedMark s).latch = s.latch := rfl
@[simp] theorem setRefusedMark_dir (s : State) : (setRefusedMark s).dir = s.dir := rfl
@[simp] theorem setRefusedMark_tr (s : State) : (setRefusedMark s).tr = s.tr := rfl
@[simp] theorem setRefusedMark_refusedMark (s : State) : (setRefusedMark s).refusedMark = true := rfl
@[simp] theorem setRefusedMark_response (s : State) : (setRefusedMark s).response = s.response := rfl
@[simp] theorem setRefusedMark_port (s : State) : (setRefusedMark s).port = s.port := rfl
@[simp] theorem setRefusedMark_now (s : State) : (setRefusedMark s).now = s.now := rfl
@[simp] theorem setRefusedMark_din (s : State) : (setRefusedMark s).din = s.din := rfl
@[simp] theorem setRefusedMark_drawn (s : State) : (setRefusedMark s).drawn = s.drawn := rfl
@[simp] theorem setRefusedMark_freeDraws (s : State) : (setRefusedMark s).freeDraws = s.freeDraws := rfl

/-! ### `complete` -/

@[simp] theorem complete_a0r (w : ResultWord) (s : State) : (complete w s).a0r = s.a0r := rfl
@[simp] theorem complete_b1r (w : ResultWord) (s : State) : (complete w s).b1r = s.b1r := rfl
@[simp] theorem complete_b2r (w : ResultWord) (s : State) : (complete w s).b2r = s.b2r := rfl
@[simp] theorem complete_c12r (w : ResultWord) (s : State) : (complete w s).c12r = s.c12r := rfl
@[simp] theorem complete_tadc (w : ResultWord) (s : State) : (complete w s).tadc = s.tadc := rfl
@[simp] theorem complete_padc (w : ResultWord) (s : State) : (complete w s).padc = s.padc := rfl
@[simp] theorem complete_tstart (w : ResultWord) (s : State) : (complete w s).tstart = s.tstart := rfl
@[simp] theorem complete_sched (w : ResultWord) (s : State) : (complete w s).sched = s.sched := rfl
@[simp] theorem complete_inited (w : ResultWord) (s : State) : (complete w s).inited = s.inited := rfl
@[simp] theorem complete_sampValid (w : ResultWord) (s : State) : (complete w s).sampValid = s.sampValid := rfl
@[simp] theorem complete_latch (w : ResultWord) (s : State) : (complete w s).latch = s.latch := rfl
@[simp] theorem complete_dir (w : ResultWord) (s : State) : (complete w s).dir = s.dir := rfl
@[simp] theorem complete_tr (w : ResultWord) (s : State) : (complete w s).tr = s.tr := rfl
@[simp] theorem complete_refusedMark (w : ResultWord) (s : State) : (complete w s).refusedMark = s.refusedMark := rfl
@[simp] theorem complete_response (w : ResultWord) (s : State) : (complete w s).response = .result w := rfl
@[simp] theorem complete_port (w : ResultWord) (s : State) : (complete w s).port = s.port := rfl
@[simp] theorem complete_now (w : ResultWord) (s : State) : (complete w s).now = s.now := rfl
@[simp] theorem complete_din (w : ResultWord) (s : State) : (complete w s).din = s.din := rfl
@[simp] theorem complete_drawn (w : ResultWord) (s : State) : (complete w s).drawn = s.drawn := rfl
@[simp] theorem complete_freeDraws (w : ResultWord) (s : State) : (complete w s).freeDraws = s.freeDraws := rfl

/-! ### `completeFree` -/

@[simp] theorem completeFree_a0r (s : State) : (completeFree s).a0r = s.a0r := rfl
@[simp] theorem completeFree_b1r (s : State) : (completeFree s).b1r = s.b1r := rfl
@[simp] theorem completeFree_b2r (s : State) : (completeFree s).b2r = s.b2r := rfl
@[simp] theorem completeFree_c12r (s : State) : (completeFree s).c12r = s.c12r := rfl
@[simp] theorem completeFree_tadc (s : State) : (completeFree s).tadc = s.tadc := rfl
@[simp] theorem completeFree_padc (s : State) : (completeFree s).padc = s.padc := rfl
@[simp] theorem completeFree_tstart (s : State) : (completeFree s).tstart = s.tstart := rfl
@[simp] theorem completeFree_sched (s : State) : (completeFree s).sched = s.sched := rfl
@[simp] theorem completeFree_inited (s : State) : (completeFree s).inited = s.inited := rfl
@[simp] theorem completeFree_sampValid (s : State) : (completeFree s).sampValid = s.sampValid := rfl
@[simp] theorem completeFree_latch (s : State) : (completeFree s).latch = s.latch := rfl
@[simp] theorem completeFree_dir (s : State) : (completeFree s).dir = s.dir := rfl
@[simp] theorem completeFree_tr (s : State) : (completeFree s).tr = s.tr := rfl
@[simp] theorem completeFree_refusedMark (s : State) : (completeFree s).refusedMark = s.refusedMark := rfl
@[simp] theorem completeFree_response (s : State) : (completeFree s).response = .result (Config.freeResult s.freeDraws) := rfl
@[simp] theorem completeFree_port (s : State) : (completeFree s).port = s.port := rfl
@[simp] theorem completeFree_now (s : State) : (completeFree s).now = s.now := rfl
@[simp] theorem completeFree_din (s : State) : (completeFree s).din = s.din := rfl
@[simp] theorem completeFree_drawn (s : State) : (completeFree s).drawn = s.drawn := rfl
@[simp] theorem completeFree_freeDraws (s : State) : (completeFree s).freeDraws = s.freeDraws + 1 := rfl

/-! ### `refuse` -/

@[simp] theorem refuse_a0r (r : RefuseReason) (s : State) : (refuse r s).a0r = s.a0r := rfl
@[simp] theorem refuse_b1r (r : RefuseReason) (s : State) : (refuse r s).b1r = s.b1r := rfl
@[simp] theorem refuse_b2r (r : RefuseReason) (s : State) : (refuse r s).b2r = s.b2r := rfl
@[simp] theorem refuse_c12r (r : RefuseReason) (s : State) : (refuse r s).c12r = s.c12r := rfl
@[simp] theorem refuse_tadc (r : RefuseReason) (s : State) : (refuse r s).tadc = s.tadc := rfl
@[simp] theorem refuse_padc (r : RefuseReason) (s : State) : (refuse r s).padc = s.padc := rfl
@[simp] theorem refuse_tstart (r : RefuseReason) (s : State) : (refuse r s).tstart = s.tstart := rfl
@[simp] theorem refuse_sched (r : RefuseReason) (s : State) : (refuse r s).sched = s.sched := rfl
@[simp] theorem refuse_inited (r : RefuseReason) (s : State) : (refuse r s).inited = s.inited := rfl
@[simp] theorem refuse_sampValid (r : RefuseReason) (s : State) : (refuse r s).sampValid = s.sampValid := rfl
@[simp] theorem refuse_latch (r : RefuseReason) (s : State) : (refuse r s).latch = s.latch := rfl
@[simp] theorem refuse_dir (r : RefuseReason) (s : State) : (refuse r s).dir = s.dir := rfl
@[simp] theorem refuse_tr (r : RefuseReason) (s : State) : (refuse r s).tr = s.tr := rfl
@[simp] theorem refuse_refusedMark (r : RefuseReason) (s : State) : (refuse r s).refusedMark = true := rfl
@[simp] theorem refuse_response (r : RefuseReason) (s : State) : (refuse r s).response = .refused r := rfl
@[simp] theorem refuse_port (r : RefuseReason) (s : State) : (refuse r s).port = s.port := rfl
@[simp] theorem refuse_now (r : RefuseReason) (s : State) : (refuse r s).now = s.now := rfl
@[simp] theorem refuse_din (r : RefuseReason) (s : State) : (refuse r s).din = s.din := rfl
@[simp] theorem refuse_drawn (r : RefuseReason) (s : State) : (refuse r s).drawn = s.drawn := rfl
@[simp] theorem refuse_freeDraws (r : RefuseReason) (s : State) : (refuse r s).freeDraws = s.freeDraws := rfl

end Sys2Proof.Machine
end

