-- ==== Sys2Proof/Laws/Ops.lean ====
section
/-! SUPPORT. One lemma for each shared operation that says once everything it does, in the terms of
Sys2Proof/Safety.lean. -/

namespace Sys2Proof.Machine

/-! ### Reading the oracle ahead -/

theorem nextDinBit_eq (s : State) : nextDinBit s = oracleBit s 0 := by
  simp [nextDinBit, oracleBit]

theorem oracleBit_afterWire (n : Nat) (evs : List Event) (l : Latches) (s : State) (k : Nat) :
    oracleBit (afterWire n evs l s) k = oracleBit s (n + k) := by
  simp [oracleBit, afterWire, List.drop_drop, Nat.add_assoc]

theorem responseByte_afterWire (j : Nat) (evs : List Event) (l : Latches) (s : State) (k : Nat) :
    responseByte (afterWire (8 * j) evs l s) k = responseByte s (j + k) := by
  simp [responseByte, oracleBit_afterWire, Nat.mul_add, Nat.add_assoc]

theorem afterWire_afterWire (m n : Nat) (e f : List Event) (l l' : Latches) (s : State) :
    afterWire n f l' (afterWire m e l s) = afterWire (m + n) (e ++ f) l' s := by
  simp [afterWire, List.drop_drop, Nat.add_assoc]

theorem afterWire_latch (n : Nat) (evs : List Event) (l : Latches) (s : State) :
    (afterWire n evs l s).latch = l := rfl

/-- The oracle depends on the answers supplied and on the count of bits drawn, nothing else. -/
theorem oracleBit_congr {s t : State} (hd : s.din = t.din) (hn : s.drawn = t.drawn) (k : Nat) :
    oracleBit s k = oracleBit t k := by
  simp [oracleBit, hd, hn]

theorem responseByte_congr {s t : State} (hd : s.din = t.din) (hn : s.drawn = t.drawn) (k : Nat) :
    responseByte s k = responseByte t k := by
  simp [responseByte, oracleBit_congr hd hn]

theorem framesFrom_congr {s t : State} (hd : s.din = t.din) (hn : s.drawn = t.drawn)
    (bs : List Byte) (k : Nat) : framesFrom s k bs = framesFrom t k bs := by
  induction bs generalizing k with
  | nil => rfl
  | cons b bs ih => simp [framesFrom, responseByte_congr hd hn, ih]

theorem framesFrom_append (s : State) (bs cs : List Byte) (k : Nat) :
    framesFrom s k (bs ++ cs) = framesFrom s k bs ++ framesFrom s (k + bs.length) cs := by
  induction bs generalizing k with
  | nil => rfl
  | cons b bs ih => simp [framesFrom, ih, Nat.add_assoc, Nat.add_comm 1]

/-! ### The exchange -/

/-- The bit cell: seven events, one bit drawn, the bit shifted in. -/
theorem bitCell_eq (out : Byte) (i : Nat) (acc : Byte) (s : State) :
    bitCell out i acc s =
      (shiftIn acc (oracleBit s 0),
        afterWire 1 (cellEvents (out.getLsbD i) (oracleBit s 0))
          { s.latch with dout := out.getLsbD i, sclk := false } s) := by
  simp [bitCell, pinSample, pinWrite, delay, emit, Latches.set, nextDinBit, oracleBit, afterWire,
    cellEvents]

/-- Eight bits shifted in, first bit first, are the byte with the first bit on top. -/
theorem shiftIn_eight (b7 b6 b5 b4 b3 b2 b1 b0 : Bool) :
    shiftIn (shiftIn (shiftIn (shiftIn (shiftIn (shiftIn (shiftIn (shiftIn 0#8 b7) b6) b5) b4) b3)
      b2) b1) b0 =
      BitVec.ofBool b7 ++ BitVec.ofBool b6 ++ BitVec.ofBool b5 ++ BitVec.ofBool b4 ++
        BitVec.ofBool b3 ++ BitVec.ofBool b2 ++ BitVec.ofBool b1 ++ BitVec.ofBool b0 := by
  revert b7 b6 b5 b4 b3 b2 b1 b0
  decide

/-- The bits of a byte put together from eight bits, first bit on top. -/
theorem getLsbD_eight (b7 b6 b5 b4 b3 b2 b1 b0 : Bool) :
    [7, 6, 5, 4, 3, 2, 1, 0].map
      (BitVec.getLsbD (BitVec.ofBool b7 ++ BitVec.ofBool b6 ++ BitVec.ofBool b5 ++
        BitVec.ofBool b4 ++ BitVec.ofBool b3 ++ BitVec.ofBool b2 ++ BitVec.ofBool b1 ++
        BitVec.ofBool b0 : Byte)) = [b7, b6, b5, b4, b3, b2, b1, b0] := by
  revert b7 b6 b5 b4 b3 b2 b1 b0
  decide

/-- Bit `i` of the response to exchange `k` is oracle bit `8k + 7 - i` (20_memory.md R33). -/
theorem responseByte_getLsbD (s : State) (k i : Nat) (hi : i < 8) :
    (responseByte s k).getLsbD i = oracleBit s (8 * k + (7 - i)) := by
  have h := getLsbD_eight (oracleBit s (8 * k)) (oracleBit s (8 * k + 1)) (oracleBit s (8 * k + 2))
    (oracleBit s (8 * k + 3)) (oracleBit s (8 * k + 4)) (oracleBit s (8 * k + 5))
    (oracleBit s (8 * k + 6)) (oracleBit s (8 * k + 7))
  simp only [List.map_cons, List.map_nil, List.cons.injEq, and_true] at h
  obtain ⟨h7, h6, h5, h4, h3, h2, h1, h0⟩ := h
  unfold responseByte
  interval_cases i
  exacts [h0, h1, h2, h3, h4, h5, h6, h7]

/-- The exchange (40_transport.md R65, R66): the next eight oracle bits are the response, 57 events,
`DOUT` and `SCLK` left at 0, nothing else changed. -/
theorem exchange_eq (out : Byte) (s : State) :
    exchange out s =
      (responseByte s 0,
        afterWire 8 (frame out (responseByte s 0)) { s.latch with dout := false, sclk := false }
          s) := by
  have hb : ∀ i, i < 8 → (responseByte s 0).getLsbD i = oracleBit s (7 - i) := fun i hi => by
    simpa using responseByte_getLsbD s 0 i hi
  have hf : frame out (responseByte s 0) =
      cellEvents (out.getLsbD 7) (oracleBit s 0) ++ (cellEvents (out.getLsbD 6) (oracleBit s 1) ++
      (cellEvents (out.getLsbD 5) (oracleBit s 2) ++ (cellEvents (out.getLsbD 4) (oracleBit s 3) ++
      (cellEvents (out.getLsbD 3) (oracleBit s 4) ++ (cellEvents (out.getLsbD 2) (oracleBit s 5) ++
      (cellEvents (out.getLsbD 1) (oracleBit s 6) ++ (cellEvents (out.getLsbD 0) (oracleBit s 7) ++
      [.write .dout false]))))))) := by
    simp only [frame, List.flatMap_cons, List.flatMap_nil, List.append_nil, List.append_assoc,
      hb 7 (by omega), hb 6 (by omega), hb 5 (by omega), hb 4 (by omega), hb 3 (by omega),
      hb 2 (by omega), hb 1 (by omega), hb 0 (by omega)]
  simp only [exchange, bitCells, bitCell_eq, oracleBit_afterWire, afterWire_afterWire,
    afterWire_latch]
  refine Prod.ext ?_ ?_
  · simp only [shiftIn_eight, responseByte]
  · simp [pinWrite, emit, Latches.set, afterWire, hf]

/-! ### The bracket -/

theorem select_eq (s : State) :
    select s = afterWire 0 selectEvents { s.latch with sclk := false, csn := false } s := by
  simp [select, pinWrite, delay, emit, Latches.set, afterWire, selectEvents]

theorem deselect_eq (s : State) :
    deselect s = afterWire 0 deselectEvents (restLatches s.latch) s := by
  simp [deselect, pinWrite, delay, emit, Latches.set, afterWire, deselectEvents, restLatches]

/-! ### The reads and the write over the wire -/

/-- An exchange after frames that began at state `s`, `DOUT` and `SCLK` being at rest. -/
theorem exchange_afterWire (b : Byte) (sent : List Byte) (l : Latches) (s : State) :
    exchange b (afterWire (8 * sent.length) (framesFrom s 0 sent) l s) =
      (responseByte s sent.length,
        afterWire (8 * (sent ++ [b]).length) (framesFrom s 0 (sent ++ [b]))
          { l with dout := false, sclk := false } s) := by
  rw [exchange_eq, responseByte_afterWire, afterWire_afterWire, framesFrom_append]
  simp [framesFrom, Nat.mul_add, afterWire_latch]

/-- The first exchange of a sequence. -/
theorem exchange_first (b : Byte) (s : State) :
    exchange b s =
      (responseByte s 0,
        afterWire (8 * [b].length) (framesFrom s 0 [b]) { s.latch with dout := false, sclk := false }
          s) := by
  rw [exchange_eq]
  simp [framesFrom]

/-- The write over the wire sends two frames (20_memory.md R38). -/
theorem memWrite_eq (addr v : Byte) (s : State) :
    memWrite addr v s =
      afterWire 16 (framesFrom s 0 [addr, v]) { s.latch with dout := false, sclk := false } s := by
  simp only [memWrite, exchange_first addr s, exchange_afterWire]
  rfl

/-- The reads of a list of addresses, after frames that began at state `s`. -/
theorem readEach_afterWire (p : Params) (as sent : List Byte) (l : Latches) (s : State)
    (h : l.dout = false) (h' : l.sclk = false) :
    readEach p as (afterWire (8 * sent.length) (framesFrom s 0 sent) l s) =
      ((List.range as.length).map (fun k => responseByte s (sent.length + (2 * k + 1))),
        afterWire (8 * (sent ++ as.flatMap (fun a => [a, p.probe])).length)
          (framesFrom s 0 (sent ++ as.flatMap (fun a => [a, p.probe]))) l s) := by
  have hl : ({ l with dout := false, sclk := false } : Latches) = l := by
    cases l
    simp_all
  induction as generalizing sent with
  | nil => simp [readEach]
  | cons a as ih =>
    simp only [readEach, memRead, exchange_afterWire, hl, ih]
    refine Prod.ext ?_ (by simp)
    simp only [List.length_cons, List.range_succ_eq_map, List.map_cons, List.map_map,
      List.length_append, List.length_nil]
    congr 1
    apply List.map_congr_left
    intro k _
    simp only [Function.comp]
    congr 1
    omega

/-- The reads of a nonempty list of addresses. -/
theorem readEach_eq (p : Params) (a : Byte) (as : List Byte) (s : State) :
    readEach p (a :: as) s =
      (keptBytes s (as.length + 1),
        afterWire (8 * (2 * (as.length + 1))) (framesFrom s 0 ((a :: as).flatMap (fun a => [a, p.probe])))
          { s.latch with dout := false, sclk := false } s) := by
  have hc : ((a :: as).flatMap (fun a => [a, p.probe])).length = 2 * (as.length + 1) := by
    simp [List.length_flatMap]
    omega
  simp only [readEach, memRead, exchange_first a s, exchange_afterWire]
  rw [readEach_afterWire p as ([a] ++ [p.probe]) _ s rfl rfl]
  refine Prod.ext ?_ ?_
  · simp only [keptBytes, List.range_succ_eq_map, List.map_cons, List.map_map]
    congr 1
    apply List.map_congr_left
    intro k _
    simp only [Function.comp]
    congr 1
    simp
    omega
  · rw [← hc]
    simp

/-- The sequence read of a nonempty list of `n` addresses (20_memory.md R37): `2n + 1` frames, the
bytes kept are the responses to the odd exchanges. -/
theorem devReadSeq_eq (p : Params) (a : Byte) (as : List Byte) (s : State) :
    devReadSeq p (a :: as) s =
      (keptBytes s (as.length + 1),
        afterWire (8 * (2 * (as.length + 1) + 1)) (framesFrom s 0 (seqBytes p (a :: as)))
          { s.latch with dout := false, sclk := false } s) := by
  have hc : ((a :: as).flatMap (fun a => [a, p.probe])).length = 2 * (as.length + 1) := by
    simp [List.length_flatMap]
    omega
  simp only [devReadSeq, readEach_eq]
  rw [← hc, exchange_afterWire]
  simp [seqBytes]

/-- A sequence read of `n` addresses returns `n` bytes. -/
theorem devReadSeq_length (p : Params) (as : List Byte) (s : State) :
    (devReadSeq p as s).1.length = as.length := by
  have h : ∀ s, (readEach p as s).1.length = as.length := by
    induction as with
    | nil => intro s; rfl
    | cons a as ih => intro s; simp [readEach, ih]
  simp only [devReadSeq, h]

end Sys2Proof.Machine
end

