-- ==== Sys2Proof/Laws/Sequences.lean ====
section
/-! SUPPORT. The three wire sequences of the block, each in its bracket (spec/41_selector.md R79). -/

namespace Sys2Proof.Machine

theorem keptBytes_congr {s t : State} (hd : s.din = t.din) (hn : s.drawn = t.drawn) (n : Nat) :
    keptBytes s n = keptBytes t n := by
  simp [keptBytes, responseByte_congr hd hn]

theorem bracketEvents_congr {s t : State} (hd : s.din = t.din) (hn : s.drawn = t.drawn)
    (bs : List Byte) : bracketEvents s bs = bracketEvents t bs := by
  simp only [bracketEvents, framesFrom_congr hd hn]

/-- Frames in a bracket: the events of the bracket, the pins at rest. -/
theorem bracket_eq (s : State) (sent : List Byte) (n : Nat) :
    deselect (afterWire n (framesFrom (select s) 0 sent)
        { (select s).latch with dout := false, sclk := false } (select s)) =
      afterWire n (bracketEvents s sent) (restLatches s.latch) s := by
  have hf : framesFrom (select s) 0 sent = framesFrom s 0 sent :=
    framesFrom_congr (by simp [select_eq, afterWire]) (by simp [select_eq, afterWire]) _ _
  rw [deselect_eq, hf, select_eq, afterWire_afterWire, afterWire_afterWire]
  simp [bracketEvents, afterWire_latch, restLatches]

/-- `CALRD` (42_calibration.md R88): 17 frames, 136 oracle bits, eight bytes kept. -/
theorem calrd_eq (p : Params) (s : State) :
    calrd p s =
      (keptBytes s 8,
        afterWire 136 (bracketEvents s (seqBytes p (calTable p))) (restLatches s.latch) s) := by
  have hk : keptBytes (select s) 8 = keptBytes s 8 :=
    keptBytes_congr (by simp [select_eq, afterWire]) (by simp [select_eq, afterWire]) _
  simp only [calrd, calTable, devReadSeq_eq]
  exact Prod.ext hk (bracket_eq s _ 136)

/-- `CONVST` (44_scheduler.md R128): two frames, 16 oracle bits. -/
theorem convst_eq (p : Params) (s : State) :
    convst p s =
      afterWire 16 (bracketEvents s [p.cmdStart, p.flush]) (restLatches s.latch) s := by
  simp only [convst, memWrite_eq]
  exact bracket_eq s _ 16

/-- `CONVRD` (44_scheduler.md R130): nine frames, 72 oracle bits, the pair written together. -/
theorem convrd_eq (p : Params) (s : State) :
    convrd p s =
      setSampValid (setSamples (sampleOf (pair (responseByte s 1) (responseByte s 3)))
        (sampleOf (pair (responseByte s 5) (responseByte s 7)))
        (afterWire 72 (bracketEvents s (seqBytes p (dataTable p))) (restLatches s.latch) s)) := by
  have hk : keptBytes (select s) 4 = keptBytes s 4 :=
    keptBytes_congr (by simp [select_eq, afterWire]) (by simp [select_eq, afterWire]) _
  have h4 : keptBytes s 4 =
      [responseByte s 1, responseByte s 3, responseByte s 5, responseByte s 7] := rfl
  have hb := bracket_eq s (seqBytes p (dataTable p)) 72
  simp only [convrd, dataTable, devReadSeq_eq] at hb ⊢
  simp only [List.length_cons, List.length_nil, Nat.zero_add, Nat.reduceAdd, Nat.reduceMul, hk, h4,
    hb]
  rfl

/-- Steps 1 to 3 of `INIT` (42_calibration.md R85): the setup events, the directions, `CSN` and
`SHDN` driven to 1. -/
theorem setup_eq (p : Params) (s : State) :
    wake p (configurePins p s) =
      { s with
        tr := s.tr ++ setupEvents p
        dir := configuredDirs p s.dir
        latch :=
          { s.latch with csn := true, shdn := if p.hasShdn then true else s.latch.shdn } } := by
  cases h : p.hasShdn <;>
    simp [wake, configurePins, h, pinCfg, pinWrite, emit, Dirs.set, Latches.set, setupEvents,
      configuredDirs]

end Sys2Proof.Machine
end

