-- ==== Sys2Proof/Laws/Exec.lean ====
section
/-! SUPPORT. What one command and one step can do, said once: every whole-machine rule is a case split
over `Effect`. -/

namespace Sys2Proof.Machine

/-- What a command leaves of the pins, the inputs and the trace, and the results it may give: the
next state `t` of `exec i s`, case by case. -/
inductive Effect (s : State) : Instr → State → Prop where
  /-- Refused before `INIT` (60_exceptions.md R146). -/
  | notInitialised (i : Instr) (hi : i ≠ .init) (h : s.inited = false) :
      Effect s i { s with response := .refused .notInitialised, refusedMark := true }
  /-- A second `INIT` (60_exceptions.md R146). -/
  | alreadyInitialised (h : s.inited = true) :
      Effect s .init { s with response := .refused .alreadyInitialised, refusedMark := true }
  /-- `XCHG` (40_transport.md R65). -/
  | xchg (b : Byte) (h : s.inited = true) :
      Effect s (.xchg b)
        { s with
          din := s.din.drop 8, drawn := s.drawn + 8, tr := s.tr ++ frame b (responseByte s 0)
          latch := { s.latch with dout := false, sclk := false }
          response := .result ((responseByte s 0).setWidth 32) }
  /-- `SEL` (41_selector.md R75). -/
  | sel (h : s.inited = true) :
      Effect s .sel
        { s with
          tr := s.tr ++ selectEvents, latch := { s.latch with sclk := false, csn := false }
          response := .result 0#32 }
  /-- `DESEL` (41_selector.md R77). -/
  | desel (h : s.inited = true) :
      Effect s .desel
        { s with
          tr := s.tr ++ deselectEvents, latch := restLatches s.latch, response := .result 0#32 }
  /-- `INIT` (42_calibration.md R85). -/
  | init (h : s.inited = false) :
      Effect s .init
        { s with
          a0r := (decodeCal (keptBytes s 8)).a0r
          b1r := (decodeCal (keptBytes s 8)).b1r
          b2r := (decodeCal (keptBytes s 8)).b2r
          c12r := (decodeCal (keptBytes s 8)).c12r
          inited := true, dir := configuredDirs params s.dir
          latch :=
            { dout := false, sclk := false, csn := true,
              shdn := if params.hasShdn then true else s.latch.shdn }
          din := s.din.drop 136, drawn := s.drawn + 136
          tr := s.tr ++ (setupEvents params ++ bracketEvents s (seqBytes params (calTable params)))
          response := .result 1#32 }
  /-- `TICK` in `StartConversion` (44_scheduler.md R122). -/
  | tickStart (h : s.inited = true) (hs : s.sched = .startConversion) :
      Effect s .tick
        { s with
          tstart := s.now, sched := .waitToRead, din := s.din.drop 16, drawn := s.drawn + 16
          tr := s.tr ++ (.now s.now :: bracketEvents s [params.cmdStart, params.flush])
          latch := restLatches s.latch, response := .result 0#32 }
  /-- `TICK` in `WaitToRead`, the delay elapsed (44_scheduler.md R124). -/
  | tickReady (h : s.inited = true) (hs : s.sched = .waitToRead)
      (hd : params.convDelayMs ≤ elapsedMs s.now s.tstart) :
      Effect s .tick
        { s with sched := .readConversion, tr := s.tr ++ [.now s.now], response := .result 0#32 }
  /-- `TICK` in `WaitToRead`, the delay not elapsed (44_scheduler.md R124). -/
  | tickEarly (h : s.inited = true) (hs : s.sched = .waitToRead)
      (hd : elapsedMs s.now s.tstart < params.convDelayMs) :
      Effect s .tick { s with tr := s.tr ++ [.now s.now], response := .result 0#32 }
  /-- `TICK` in `ReadConversion` (44_scheduler.md R126). -/
  | tickRead (h : s.inited = true) (hs : s.sched = .readConversion) :
      Effect s .tick
        { s with
          padc := sampleOf (pair (responseByte s 1) (responseByte s 3))
          tadc := sampleOf (pair (responseByte s 5) (responseByte s 7))
          sampValid := true, sched := .startConversion
          din := s.din.drop 72, drawn := s.drawn + 72
          tr := s.tr ++ bracketEvents s (seqBytes params (dataTable params))
          latch := restLatches s.latch, response := .result 0#32 }
  /-- `RDP` after a completed read (43_compensation.md R108). -/
  | rdp (h : s.inited = true) (hv : s.sampValid = true) :
      Effect s .rdp
        { s with
          response := .result (signedResult
            (pressureOut params (pcomp22 s.a0r s.b1r s.b2r s.c12r s.tadc s.padc))) }
  /-- `RDT` after a completed read (43_compensation.md R112). -/
  | rdt (h : s.inited = true) (hv : s.sampValid = true) :
      Effect s .rdt { s with response := .result (signedResult (temperatureOut params s.tadc)) }
  /-- `RDP` or `RDT` before the first completed read (43_compensation.md R118 (a)). -/
  | free (i : Instr) (hi : i = .rdp ∨ i = .rdt) (h : s.inited = true) (hv : s.sampValid = false) :
      Effect s i
        { s with
          response := .result (Config.freeResult s.freeDraws), freeDraws := s.freeDraws + 1 }

/-- A signed result changes the answer only. -/
theorem completeSigned_eq (v : Int) (s : State) :
    completeSigned v s = { s with response := .result (signedResult v) } := rfl

/-- A value that fits is returned in two's complement. -/
theorem signedResult_of_fits {v : Int} (h : fitsResult v = true) :
    signedResult v = BitVec.ofInt 32 v := if_pos h

/-- The body of `INIT` as one update (42_calibration.md R85). -/
theorem initBody_eq (s : State) :
    initBody params s =
      { s with
        a0r := (decodeCal (keptBytes s 8)).a0r
        b1r := (decodeCal (keptBytes s 8)).b1r
        b2r := (decodeCal (keptBytes s 8)).b2r
        c12r := (decodeCal (keptBytes s 8)).c12r
        inited := true, dir := configuredDirs params s.dir
        latch :=
          { dout := false, sclk := false, csn := true,
            shdn := if params.hasShdn then true else s.latch.shdn }
        din := s.din.drop 136, drawn := s.drawn + 136
        tr := s.tr ++ (setupEvents params ++ bracketEvents s (seqBytes params (calTable params)))
        response := .result 1#32 } := by
  have hd : (wake params (configurePins params s)).din = s.din := by rw [setup_eq]
  have hn : (wake params (configurePins params s)).drawn = s.drawn := by rw [setup_eq]
  simp only [initBody, calrd_eq, keptBytes_congr hd hn, bracketEvents_congr hd hn]
  simp [setup_eq, complete, setInited, setCoeffs, afterWire, restLatches]

/-- Arm `StartConversion` as one update (44_scheduler.md R122). -/
theorem tickStart_eq (s : State) :
    tickStart params s =
      { s with
        tstart := s.now, sched := .waitToRead, din := s.din.drop 16, drawn := s.drawn + 16
        tr := s.tr ++ (.now s.now :: bracketEvents s [params.cmdStart, params.flush])
        latch := restLatches s.latch } := by
  have hb : bracketEvents (setTstart (clockRead s).1 (clockRead s).2) = bracketEvents s :=
    funext fun bs => bracketEvents_congr (by simp) (by simp) bs
  simp only [tickStart, convst_eq, hb]
  simp [afterWire, setSched, setTstart, clockRead, emit]

/-- A command answers a next state, and it is one of the effects. -/
theorem exec_effect (i : Instr) (s : State) : ∃ t, exec i s = .next t ∧ Effect s i t := by
  have hr : s.inited = false → i ≠ .init → ∃ t, exec i s = .next t ∧ Effect s i t := by
    intro h hi
    refine ⟨_, ?_, .notInitialised i hi h⟩
    cases i <;> first
      | exact absurd rfl hi
      | simp [exec, execXchg, execSel, execDesel, execTick, execRdp, execRdt, whenInited, h, refuse,
          setRefusedMark]
  cases h : s.inited with
  | false =>
    by_cases hi : i = .init
    · subst hi
      refine ⟨_, ?_, .init h⟩
      rw [← initBody_eq]
      simp [exec, execInit, whenNotInited, h]
    · exact hr h hi
  | true =>
    have hw : ∀ f, whenInited f s = f s := fun f => by simp [whenInited, h]
    cases i with
    | init =>
      refine ⟨_, ?_, .alreadyInitialised h⟩
      simp [exec, execInit, whenNotInited, h, refuse, setRefusedMark]
    | xchg b =>
      refine ⟨_, ?_, .xchg b h⟩
      simp [exec, execXchg, hw, xchgBody, exchange_eq, complete, afterWire]
    | sel =>
      refine ⟨_, ?_, .sel h⟩
      simp [exec, execSel, hw, select_eq, complete, afterWire]
    | desel =>
      refine ⟨_, ?_, .desel h⟩
      simp [exec, execDesel, hw, deselect_eq, complete, afterWire]
    | tick =>
      cases hs : s.sched with
      | startConversion =>
        refine ⟨_, ?_, .tickStart h hs⟩
        simp only [exec, execTick, hw, tickBody, hs, tickStart_eq]
        rfl
      | waitToRead =>
        by_cases hd : params.convDelayMs ≤ elapsedMs s.now s.tstart
        · refine ⟨_, ?_, .tickReady h hs hd⟩
          simp [exec, execTick, hw, tickBody, hs, tickWait, clockRead, emit, hd, setSched, complete]
        · refine ⟨_, ?_, .tickEarly h hs (Nat.not_le.mp hd)⟩
          simp [exec, execTick, hw, tickBody, hs, tickWait, clockRead, emit, hd, complete]
      | readConversion =>
        refine ⟨_, ?_, .tickRead h hs⟩
        simp only [exec, execTick, hw, tickBody, hs, tickRead, convrd_eq]
        rfl
    | rdp =>
      cases hv : s.sampValid with
      | true =>
        refine ⟨_, ?_, .rdp h hv⟩
        simp [exec, execRdp, hw, rdpBody, hv, completeSigned_eq]
      | false =>
        refine ⟨_, ?_, .free .rdp (.inl rfl) h hv⟩
        simp [exec, execRdp, hw, rdpBody, hv, completeFree, complete]
    | rdt =>
      cases hv : s.sampValid with
      | true =>
        refine ⟨_, ?_, .rdt h hv⟩
        simp [exec, execRdt, hw, rdtBody, hv, completeSigned_eq]
      | false =>
        refine ⟨_, ?_, .free .rdt (.inr rfl) h hv⟩
        simp [exec, execRdt, hw, rdtBody, hv, completeFree, complete]

/-- What a command can do, from its answer. -/
theorem effect_of_exec {i : Instr} {s t : State} (h : exec i s = .next t) : Effect s i t := by
  obtain ⟨t', ht', he⟩ := exec_effect i s
  cases ht'.symm.trans h
  exact he

/-- What a step can do: nothing where no command is presented, else the refusal of an illegal word or
the effect of a command, on the state with that command taken. -/
theorem step_cases {s t : State} (h : step s = .next t) :
    (s.port = [] ∧ t = s) ∨
    ∃ c rest, s.port = c :: rest ∧
      ((∃ e, decode c.cw = .error e ∧
          t = { s with
            port := rest, now := c.now, response := .refused .illegalCommand
            refusedMark := true }) ∨
        ∃ i, decode c.cw = .ok i ∧ Effect { s with port := rest, now := c.now } i t) := by
  cases hp : s.port with
  | nil =>
    simp only [step, takeCommand, hp, idle, Host.Outcome.next.injEq] at h
    exact .inl ⟨rfl, h.symm⟩
  | cons c rest =>
    refine .inr ⟨c, rest, rfl, ?_⟩
    simp only [step, takeCommand, hp] at h
    cases hd : decode c.cw with
    | error e =>
      rw [hd] at h
      simp only [Host.Outcome.next.injEq] at h
      exact .inl ⟨e, rfl, h.symm⟩
    | ok i =>
      rw [hd] at h
      exact .inr ⟨i, rfl, effect_of_exec h⟩

end Sys2Proof.Machine
end

