-- ==== Sys2Proof/Laws/PerInstr.lean ====
section
/-! SUPPORT. Statements made for every instruction, one lemma per constructor. -/

namespace Sys2Proof.Laws.TableRow

/-- The row of spec/opcode_table.json of a command: its mask and its match. -/
def row : Instr → CmdWord × CmdWord
  | .xchg _ => (0xF00#12, 0x100#12)
  | .sel => (0xFFF#12, 0x200#12)
  | .desel => (0xFFF#12, 0x300#12)
  | .init => (0xFFF#12, 0x400#12)
  | .tick => (0xFFF#12, 0x500#12)
  | .rdp => (0xFFF#12, 0x600#12)
  | .rdt => (0xFFF#12, 0x700#12)

/-- The encoded word matches the command's row of the table and is legal (30_encoding.md R57, R59). -/
def Statement (i : Instr) : Prop :=
  encode i &&& (row i).1 = (row i).2 ∧ CmdWord.legal (encode i) = true

theorem xchg (imm8 : Byte) : Statement (.xchg imm8) := by
  revert imm8
  unfold Statement
  decide +revert

theorem sel : Statement .sel := ⟨rfl, rfl⟩

theorem desel : Statement .desel := ⟨rfl, rfl⟩

theorem init : Statement .init := ⟨rfl, rfl⟩

theorem tick : Statement .tick := ⟨rfl, rfl⟩

theorem rdp : Statement .rdp := ⟨rfl, rfl⟩

theorem rdt : Statement .rdt := ⟨rfl, rfl⟩

end Sys2Proof.Laws.TableRow
end

