-- ==== Sys2Proof/Tests/Slice0.lean ====
section
/-! SUPPORT. Tests. Every expected value is from spec/95_test_vectors.md or from a table of the rule
named; none was taken from the model. Then, for each statement of the package that has hypotheses, a
witness that meets them. -/

namespace Sys2Proof.Tests

open Sys2Proof Sys2Proof.Machine

/-! ### Fixtures -/

/-- The parameters of 95_test_vectors.md section 0, with `CONV_DELAY_MS` 3, `P_MULT` 100 and `T_MULT`
10 as in its program 3. `T_SETTLE_US` has no value there. -/
def testParams : Params where
  tSettleUs := 1
  hasShdn := true
  calAddr := #v[0x88, 0x8A, 0x8C, 0x8E, 0x90, 0x92, 0x94, 0x96]
  addrPHi := 0x80
  addrPLo := 0x82
  addrTHi := 0x84
  addrTLo := 0x86
  cmdStart := 0x24
  probe := 0x00
  flush := 0x00
  nullb := 0x00
  convDelayMs := 3
  pMult := 100
  tMult := 10
  t0 := 472
  slopeNum := 107
  slopeDen := 20

/-- The bits the peripheral answers for the bytes received, most significant bit first (fixture K). -/
def wire (received : List Byte) : List Bool :=
  received.flatMap fun b => [7, 6, 5, 4, 3, 2, 1, 0].map b.getLsbD

/-- A block after `INIT`, deselected, with an empty trace, and answers to come. -/
def ready (received : List Byte) : State :=
  { State.reset with
    inited := true, din := wire received
    latch := { dout := false, sclk := false, csn := true, shdn := true } }

/-- The same after a completed read: program 3 of 95_test_vectors.md before its step 8. -/
def measured : State :=
  { ready [] with
    a0r := BitVec.ofInt 16 16078, b1r := BitVec.ofInt 16 (-19463)
    b2r := BitVec.ofInt 16 (-15081), c12r := BitVec.ofInt 14 3314
    padc := 410#10, tadc := 507#10, sampValid := true }

/-- A block that waits for the conversion started at `t`. -/
def waiting (t now : ClockVal) : State :=
  { ready [] with sched := .waitToRead, tstart := t, now := now }

/-- A block about to read its samples. -/
def reading (received : List Byte) : State := { ready received with sched := .readConversion }

/-- `s` with the command word `w` presented. -/
def presented (w : CmdWord) (s : State) : State := { s with port := [{ cw := w, now := 7#32 }] }

/-- The levels a list of events drives `DOUT` to. -/
def doutLevels : List Event → List Bool
  | [] => []
  | .write .dout v :: es => v :: doutLevels es
  | _ :: es => doutLevels es

/-- The calibration record of program 2, as the 17 bytes received. -/
def calReceived : List Byte :=
  [0x00, 0x3E, 0x00, 0xCE, 0x00, 0xB3, 0x00, 0xF9, 0x00, 0xC5, 0x00, 0x17, 0x00, 0x33, 0x00, 0xC8,
    0x00]

/-! ### Well-formedness -/

/-- 30_encoding.md R59: one word per check that it fails, and the legal words at the boundaries. -/
theorem test_illegal_words :
    CmdWord.opcodeAssigned 0x000#12 = false ∧ CmdWord.opcodeAssigned 0x0A5#12 = false ∧
    CmdWord.opcodeAssigned 0x800#12 = false ∧ CmdWord.opcodeAssigned 0xFFF#12 = false ∧
    CmdWord.operandAllowed 0x201#12 = false ∧ CmdWord.operandAllowed 0x6FF#12 = false ∧
    CmdWord.legal 0x100#12 = true ∧ CmdWord.legal 0x1FF#12 = true ∧
    CmdWord.legal 0x700#12 = true ∧ CmdWord.legal 0x701#12 = false := by decide

/-- 00_scope.md R6: an ill-formed set of parameters for each constraint. -/
theorem test_ill_formed_params :
    Params.wf testParams = true ∧
    Params.wf { testParams with tSettleUs := 0 } = false ∧
    Params.wf { testParams with convDelayMs := 2 } = false ∧
    Params.wf { testParams with convDelayMs := 11 } = false ∧
    Params.wf { testParams with pMult := 10 } = false ∧
    Params.wf { testParams with tMult := 0 } = false ∧
    Params.wf { testParams with slopeNum := 0 } = false ∧
    Params.wf { testParams with slopeDen := 0 } = false := by decide

/-! ### Decoding (95_test_vectors.md section 2.9) -/

/-- The legal words, bit by bit: `op` in [11:8], `imm8` in [7:0]. -/
theorem test_decode_legal :
    decode 0b000100000000#12 = .ok (.xchg 0x00#8) ∧
    decode 0b000110100101#12 = .ok (.xchg 0xA5#8) ∧
    decode 0b000111111111#12 = .ok (.xchg 0xFF#8) ∧
    decode 0b001000000000#12 = .ok .sel ∧ decode 0b001100000000#12 = .ok .desel ∧
    decode 0b010000000000#12 = .ok .init ∧ decode 0b010100000000#12 = .ok .tick ∧
    decode 0b011000000000#12 = .ok .rdp ∧ decode 0b011100000000#12 = .ok .rdt := by decide

/-- The illegal words of the table, under the name of what is wrong. -/
theorem test_decode_illegal :
    decode 0x000#12 = .error (.reservedOpcode 0x0#4) ∧
    decode 0x0A5#12 = .error (.reservedOpcode 0x0#4) ∧
    decode 0x201#12 = .error (.operandNotZero 0x2#4 0x01#8) ∧
    decode 0x401#12 = .error (.operandNotZero 0x4#4 0x01#8) ∧
    decode 0x6FF#12 = .error (.operandNotZero 0x6#4 0xFF#8) ∧
    decode 0x800#12 = .error (.reservedOpcode 0x8#4) ∧
    decode 0xFFF#12 = .error (.reservedOpcode 0xF#4) := by decide

/-- The words as spec/opcode_table.json numbers them, in whole bytes; a wider number is no word. -/
theorem test_decode_table_word :
    decodeTableWord 16 0x1A5 = some (.xchg 0xA5#8) ∧ decodeTableWord 16 0x500 = some .tick ∧
    decodeTableWord 16 0x501 = none ∧ decodeTableWord 16 0x1500 = none := by decide

/-- 30_encoding.md R59, 95_test_vectors.md section 2.9: opcode 0 has no legal word. -/
theorem test_opcode_zero_illegal : ∀ b : Byte, CmdWord.legal (0x0#4 ++ b) = false := by
  decide +kernel

/-! ### The step -/

/-- A presented word runs as the next instruction: `SEL`, on a block after `INIT`. -/
theorem test_fetched_word_runs :
    step ((ready []).withFetchWord 16 0x200) = exec .sel (ready []) := rfl

/-- Program 5 of 95_test_vectors.md, rows 1, 2, 4 and 6: reasons and their order. -/
theorem test_refusals :
    step (presented 0x500#12 State.reset) =
      .next { State.reset with
        now := 7#32, response := .refused .notInitialised, refusedMark := true } ∧
    step (presented 0x000#12 State.reset) =
      .next { State.reset with
        now := 7#32, response := .refused .illegalCommand, refusedMark := true } ∧
    step (presented 0x401#12 State.reset) =
      .next { State.reset with
        now := 7#32, response := .refused .illegalCommand, refusedMark := true } ∧
    step (presented 0x400#12 (ready [])) =
      .next { ready [] with
        now := 7#32, response := .refused .alreadyInitialised, refusedMark := true } :=
  ⟨rfl, rfl, rfl, rfl⟩

/-! ### One test or two per command -/

/-- 95_test_vectors.md section 2.1: oracle bits 1,1,0,0,0,0,1,1 give 0xC3, whatever is sent. -/
theorem test_xchg_result :
    exec (.xchg 0xA5#8)
        { ready [] with din := [true, true, false, false, false, false, true, true, true] } =
      .next { ready [] with
        din := [true], drawn := 8, tr := frame 0xA5#8 0xC3#8
        response := .result 0x000000C3#32 } := rfl

/-- 95_test_vectors.md section 2.1: the levels written to `DOUT` for 0xA5. -/
theorem test_xchg_dout_levels :
    doutLevels (exchange 0xA5#8 (ready [0x00])).2.tr =
      [true, false, true, false, false, true, false, true, false] := by decide

/-- 95_test_vectors.md section 2.2: `SEL` leaves `DOUT` as it is. -/
theorem test_sel :
    exec .sel { ready [] with latch := { dout := true, sclk := true, csn := true, shdn := true } } =
      .next { ready [] with
        tr := [.write .sclk false, .delay, .write .csn false, .delay]
        latch := { dout := true, sclk := false, csn := false, shdn := true }
        response := .result 0#32 } := rfl

/-- 95_test_vectors.md section 2.2: `DESEL` forces `DOUT` to 0. -/
theorem test_desel :
    exec .desel
        { ready [] with latch := { dout := true, sclk := true, csn := false, shdn := true } } =
      .next { ready [] with
        tr := [.write .sclk false, .delay, .write .csn true, .write .dout false]
        response := .result 0#32 } := rfl

/-- 95_test_vectors.md program 2: the coefficients `INIT` decodes, and its result. -/
theorem test_init_coefficients :
    let t := initBody testParams { State.reset with din := wire calReceived }
    (t.a0r.toInt, t.b1r.toInt, t.b2r.toInt, t.c12r.toInt) = (16078, -19463, -15081, 3314) ∧
      t.inited = true ∧ t.sampValid = false ∧ t.drawn = 136 ∧ t.response = .result 1#32 := by
  decide +kernel

/-- 95_test_vectors.md program 2: the first seven events of `TR`. -/
theorem test_init_first_events :
    (wake testParams (configurePins testParams State.reset)).tr =
      [.cfg .din .input, .cfg .dout .output, .cfg .sclk .output, .cfg .csn .output,
        .cfg .shdn .output, .write .csn true, .write .shdn true] := by decide

/-- 95_test_vectors.md section 2.8, rows 1 and 10: starting takes the timestamp and 16 oracle bits;
reading stores 410 and 507 (program 3, step 7) and the clock is not looked at. -/
theorem test_tick_start_and_read :
    (let t := tickBody testParams { ready [0x00, 0x00] with now := 1000#32 }
     (t.tstart, t.sched, t.drawn, t.tr.take 1) =
       (1000#32, .waitToRead, 16, [.now 1000#32])) ∧
    (let t := tickBody testParams
       (reading [0x00, 0x66, 0x00, 0x80, 0x00, 0x7E, 0x00, 0xC0, 0x00])
     (t.padc, t.tadc, t.sched, t.sampValid, t.drawn) =
       (410#10, 507#10, .startConversion, true, 72)) := by decide +kernel

/-- 95_test_vectors.md section 2.8, rows 3, 4, 6, 7 and 9: the delay, with the wrap of the clock and
a clock that ran backwards. -/
theorem test_tick_waits :
    (tickBody testParams (waiting 1000#32 1002#32)).sched = .waitToRead ∧
    (tickBody testParams (waiting 1000#32 1003#32)).sched = .readConversion ∧
    (tickBody testParams (waiting 0xFFFFFFFE#32 0x00000000#32)).sched = .waitToRead ∧
    (tickBody testParams (waiting 0xFFFFFFFE#32 0x00000001#32)).sched = .readConversion ∧
    (tickBody testParams (waiting 1000#32 999#32)).sched = .readConversion := by decide

/-- 95_test_vectors.md program 3, step 8: 9658, and 96587 for the other multiplier. -/
theorem test_rdp :
    (rdpBody testParams measured).response = .result 9658#32 ∧
    (rdpBody { testParams with pMult := 1000 } measured).response = .result 96587#32 := by decide

/-- 95_test_vectors.md program 3, step 9, and program 4, step 14: 315, and -632 in two's complement. -/
theorem test_rdt :
    (rdtBody testParams measured).response = .result 315#32 ∧
    (rdtBody testParams { measured with tadc := 0#10 }).response =
      .result (0xFFFFFD88#32) := by decide

/-! ### The shared operations -/

/-- 95_test_vectors.md section 2.3: the `c12` word is shifted on its signed value. -/
theorem test_decode_cal_c12 :
    (decodeCal [0, 0, 0, 0, 0, 0, 0xFF, 0xFF]).c12r.toInt = -1 ∧
    (decodeCal [0, 0, 0, 0, 0, 0, 0xFF, 0xFB]).c12r.toInt = -2 ∧
    (decodeCal [0, 0, 0, 0, 0, 0, 0x80, 0x00]).c12r.toInt = -8192 ∧
    (decodeCal [0, 0, 0, 0, 0, 0, 0xDE, 0xF1]).c12r.toInt = -2116 ∧
    (decodeCal [0x12, 0x34, 0x56, 0x78, 0x9A, 0xBC, 0, 3]).b2r.toInt = -25924 := by decide

/-- 95_test_vectors.md section 1.7: bytes re-encoded. -/
theorem test_encode_cal :
    encodeCal (decodeCal [0x12, 0x34, 0x56, 0x78, 0x9A, 0xBC, 0xDE, 0xF1]) =
      [0x12, 0x34, 0x56, 0x78, 0x9A, 0xBC, 0xDE, 0xF0] := by decide

/-- 95_test_vectors.md section 2.5, rows 1, 3 and 7. -/
theorem test_pcomp22 :
    pcomp22 (BitVec.ofInt 16 16078) (BitVec.ofInt 16 (-19463)) (BitVec.ofInt 16 (-15081))
      3314#14 507#10 410#10 = 3075317532 ∧
    pcomp22 (BitVec.ofInt 16 16078) (BitVec.ofInt 16 (-19463)) (BitVec.ofInt 16 (-15081))
      3314#14 0#10 1023#10 = -1764749824 ∧
    pcomp22 0xFFFF#16 0xFFFF#16 0xFFFF#16 0x3FFF#14 1023#10 1023#10 = -2356481 := by decide

/-- 95_test_vectors.md section 2.5: the rounding cases of `PressureOut`. -/
theorem test_pressure_out_rounding :
    [0, 1, -1, 660118, 660119, 4290772991, 4290772992, -3300594610, -3300594609,
      -51497672704].map (pressureOut testParams) =
      [5000, 5000, 4999, 5000, 5001, 11499, 11500, 0, 0, -73012] := by decide

/-- 95_test_vectors.md section 2.6: rows 0, 471, 477 and 1023, and a row of the negative slope. -/
theorem test_temperature_out :
    [0#10, 471#10, 477#10, 1023#10].map (temperatureOut testParams) = [-632, 248, 259, 1279] ∧
    temperatureOut { testParams with t0 := 514, slopeNum := -107, tMult := 100 } 507#10 = 2630 := by
  decide

/-- 95_test_vectors.md section 2.7. -/
theorem test_sample_of :
    [0x0000#16, 0x003F#16, 0x0040#16, 0x6680#16, 0xFFC0#16, 0xFFFF#16].map sampleOf =
      [0#10, 0#10, 1#10, 410#10, 1023#10, 1023#10] := by decide

/-- 20_memory.md R38: the start command sends `CMD_START` = 0x24 and the flush byte, one after the
other; the levels are those of section 2.1 for 0x24 and 0x00. -/
theorem test_mem_write_sends :
    doutLevels (memWrite 0x24 0x00 (ready [0x00, 0x00])).tr =
      [false, false, true, false, false, true, false, false, false,
        false, false, false, false, false, false, false, false, false] := by decide +kernel

/-- 30_encoding.md R58: the ends of the signed 32-bit range. -/
theorem test_fits_result :
    fitsResult 2147483647 = true ∧ fitsResult 2147483648 = false ∧
      fitsResult (-2147483648) = true ∧ fitsResult (-2147483649) = false := by decide

/-! ### Witnesses: the hypotheses of each statement can be met -/

/-- `CONV_DELAY_MS` lies in 3 to 10 (00_scope.md R6). -/
theorem conv_delay_bounds : 3 ≤ params.convDelayMs ∧ params.convDelayMs ≤ 10 := by
  have h := params_wf
  simp only [Params.wf, Bool.and_eq_true, decide_eq_true_eq] at h
  exact h.1.1.1.1.2

/-- `DecodeAcceptsExactlyLegalWords`: each clause. -/
theorem test_witness_legal_words :
    CmdWord.legal 0x100#12 = true ∧ CmdWord.opcodeAssigned 0x8FF#12 = false ∧
    (CmdWord.opcodeAssigned 0x7FF#12 = true ∧ CmdWord.operandAllowed 0x7FF#12 = false) := by decide

/-- `XchgExchangesOneByte`, `SelSelectsDevice`, `DeselDeselectsDevice`, `InitReadsCalibration`,
`CommandsRefusedOutsidePrecondition`: a block before and a block after `INIT`. -/
theorem test_witness_inited : (ready []).inited = true ∧ State.reset.inited = false := by decide

/-- `InitWithStuckDataIn`: both levels. -/
theorem test_witness_stuck_data_in :
    ∀ v : Bool, ({ State.reset with din := List.replicate 136 v } : State).inited = false ∧
      ∀ k < 136, oracleBit { State.reset with din := List.replicate 136 v } k = v := by
  decide +kernel

/-- `TickStartsConversion`, `TickReadsSamples`. -/
theorem test_witness_tick_states :
    ((ready []).inited = true ∧ (ready []).sched = .startConversion) ∧
    ((reading []).inited = true ∧ (reading []).sched = .readConversion) := by decide

/-- `TickWaitsForDelay`: both clauses, each at the values where they meet. -/
theorem test_witness_tick_waits :
    let d := params.convDelayMs
    let late := waiting 0#32 (BitVec.ofNat 32 d)
    let early := waiting 0#32 (BitVec.ofNat 32 (d - 1))
    (late.inited = true ∧ late.sched = .waitToRead ∧
      d ≤ (late.now.toNat + (2 ^ 32 - late.tstart.toNat)) % 2 ^ 32) ∧
    (early.inited = true ∧ early.sched = .waitToRead ∧
      (early.now.toNat + (2 ^ 32 - early.tstart.toNat)) % 2 ^ 32 < d) := by
  have h := conv_delay_bounds
  simp only [waiting, ready, BitVec.toNat_ofNat]
  refine ⟨⟨trivial, trivial, ?_⟩, trivial, trivial, ?_⟩ <;> omega

/-- `RdpReturnsPressure`, `RdtReturnsTemperature`, `RdpIsExactPressureTruncated`: each clause. -/
theorem test_witness_reads :
    (measured.inited = true ∧ measured.sampValid = true) ∧
    ((ready []).inited = true ∧ (ready []).sampValid = false) ∧ State.reset.inited = false := by
  decide

/-- `CoefficientPairsAreSigned`: the word 0xFFFF in the place of `c12`. -/
theorem test_witness_c12_word : (0xFF#8).toNat * 256 + (0xFF#8).toNat = 0xFFFF := by decide

/-- `StepRunsDecodedCommand`, `StepIdlesWithoutCommand`. -/
theorem test_witness_step :
    ((presented 0x400#12 State.reset).port = [{ cw := 0x400#12, now := 7#32 }] ∧
      decode 0x400#12 = .ok .init) ∧ State.reset.port = [] := by decide

/-- `StepRefusesOnlyAsSpecified`: each clause. -/
theorem test_witness_step_refuses :
    CmdWord.legal 0x000#12 = false ∧
    (decode 0x1A5#12 = .ok (.xchg 0xA5#8) ∧ State.reset.inited = false) ∧
    (decode 0x400#12 = .ok .init ∧ (ready []).inited = true) ∧
    (decode 0x400#12 = .ok .init ∧ (Instr.init = .init ↔ State.reset.inited = false)) ∧
    (decode 0x600#12 = .ok .rdp ∧ (Instr.rdp = .init ↔ (ready []).inited = false)) ∧
    (presented 0x200#12 { ready [] with refusedMark := true }).refusedMark = true := by decide

/-- `StepKeepsInvariant`: a block after reset with `INIT` presented. -/
theorem test_witness_inv :
    Inv params (presented 0x400#12 State.reset) ∧
    ∃ t, step (presented 0x400#12 State.reset) = .next t :=
  ⟨⟨fun _ => ⟨rfl, rfl, rfl, rfl, rfl⟩, fun h => (Bool.false_ne_true h).elim,
    fun _ _ h => (Option.some_ne_none _ h.symm).elim, rfl, fun _ => rfl⟩, _, rfl⟩

/-- `StepKeepsWireDiscipline`: a selected block with `XCHG` presented, its `SEL` in the trace. -/
theorem test_witness_wire :
    WireInv (presented 0x1A5#12 { ready [] with tr := selectEvents }) ∧
    ∃ t, step (presented 0x1A5#12 { ready [] with tr := selectEvents }) = .next t :=
  ⟨⟨_, rfl, .inl ⟨rfl, rfl, Nat.le_refl 1⟩⟩, _, rfl⟩

/-- `UnwrittenRegistersReachNothing`: two different states with equal images. -/
theorem test_witness_unwritten :
    let s := presented 0x400#12 State.reset
    let t := { s with a0r := 1#16, padc := 5#10, tstart := 9#32, latch := { s.latch with csn := true } }
    s ≠ t ∧ forgetUnwritten params s = forgetUnwritten params t ∧
      (∃ s', step s = .next s') ∧ ∃ t', step t = .next t' :=
  ⟨by decide, rfl, ⟨_, rfl⟩, _, rfl⟩

/-- `CommandsWriteOnlyTheirState`, `SamplePairIsAtomic`, `CommandsEmitSpecifiedCounts`,
`OwnSequencesAreBracketed`: every command, on a state of each kind that their clauses name, answers a next state, with its events. -/
theorem test_witness_commands :
    ∀ s ∈ [State.reset, ready [], waiting 0#32 1#32, reading [], measured], ∀ i : Instr,
      ∃ t evs, exec i s = .next t ∧ t.tr = s.tr ++ evs := by
  intro s hs i
  obtain ⟨t, h, -⟩ := exec_effect i s
  have htr : s.tr = [] := by
    simp only [List.mem_cons, List.not_mem_nil, or_false] at hs
    rcases hs with rfl | rfl | rfl | rfl | rfl <;> rfl
  exact ⟨t, t.tr, h, by rw [htr, List.nil_append]⟩

/-- `CoefficientsSetOnce`, `MarksNeverCleared`, `ShutdownPinOnlyWokenOnce`. -/
theorem test_witness_marks :
    let s := presented 0x600#12 { measured with refusedMark := true }
    (s.inited = true ∧ s.sampValid = true ∧ s.refusedMark = true) ∧ ∃ t, step s = .next t :=
  ⟨⟨rfl, rfl, rfl⟩, _, rfl⟩

/-- `OnlySelLeavesSelected`: `SEL` and `DESEL`. -/
theorem test_witness_only_sel :
    (∃ t, exec .sel (ready []) = .next t ∧ (ready []).latch.csn = true ∧ t.latch.csn = false) ∧
    ∃ t, exec .desel (ready []) = .next t ∧ (ready []).inited = true :=
  ⟨⟨_, rfl, rfl, rfl⟩, _, rfl, rfl⟩

/-- `LoopbackReturnsByteSent`: the peripheral answers the byte sent. -/
theorem test_witness_loopback :
    ∃ t, exec (.xchg 0xA5#8) (ready [0xA5]) = .next t ∧ (ready [0xA5]).inited = true ∧
      t.tr = (ready [0xA5]).tr ++ frame 0xA5#8 0xA5#8 ∧
      loopedBack (ready [0xA5]).latch.dout (frame 0xA5#8 0xA5#8) = true :=
  ⟨_, rfl, rfl, by decide, by decide⟩

/-- `TdivRoundsTowardZero`, and what it says there. -/
theorem test_witness_tdiv : (-107 : Int) ≠ 0 ∧ tdiv 7 (-2) = -3 ∧ tdiv (-7) 2 = -3 := by decide

/-- `PressureResultRange`: both multipliers, both ends of the device scale. -/
theorem test_witness_pressure_range :
    testParams.pMult = 100 ∧ ({ testParams with pMult := 1000 } : Params).pMult = 1000 ∧
    pcomp22 0#16 0#16 0#16 0#14 1023#10 1023#10 = 0 ∧
    pcomp22 0#16 8192#16 0#16 0#14 0#10 1023#10 = 1023 * 2 ^ 22 := by decide

/-- `CompensationCorners`. -/
theorem test_witness_corners :
    testParams.slopeNum ≠ 0 ∧ ((472#10).toNat : Int) = testParams.t0 := by decide

/-- `TemperatureIsExactFormulaTruncated`. -/
theorem test_witness_params : testParams.wf = true := by decide

/-- `ReadsAreRepeatable`: two different states that agree on the coefficients and the samples. -/
theorem test_witness_repeatable :
    let t := { measured with sched := .waitToRead, tstart := 5#32, now := 9#32, freeDraws := 3 }
    measured ≠ t ∧ measured.inited = true ∧ t.inited = true ∧ measured.sampValid = true ∧
      t.sampValid = true ∧ measured.tadc = t.tadc ∧ measured.padc = t.padc ∧
      measured.a0r = t.a0r ∧ measured.b1r = t.b1r ∧ measured.b2r = t.b2r ∧
      measured.c12r = t.c12r := by decide

/-- The wire scan refuses, in the order of 30_encoding.md R48: data-out changed while the clock is high,
and right after its fall; a pulse without a sample; a sample with no delay after the rise. -/
theorem test_wire_scan_refuses :
    let w : Wire := { clock := .low, settled := true, held := true, sinceSelect := 2 }
    wireScan w (cellEvents true true) =
        some { clock := .low, settled := true, held := true, sinceSelect := 5 } ∧
      wireScan w [.write .sclk true, .delay, .write .dout false] = none ∧
      wireScan w [.write .sclk true, .delay, .sample true, .write .sclk false, .write .dout false] =
        none ∧
      wireScan w [.write .sclk true, .delay, .write .sclk false] = none ∧
      wireScan w [.write .sclk true, .sample true] = none := by decide

/-- 41_selector.md R79: a sample outside a bracket, and a bracket left open, are seen. -/
theorem test_samples_bracketed_refuses :
    samplesBracketed false [.sample true] = false ∧
      samplesBracketed false [.write .csn false, .sample true] = false ∧
      samplesBracketed false [.write .csn false, .sample true, .write .csn true] = true := by decide

/-- `EarlyTicksChangeNothing`: three early ticks. -/
theorem test_witness_early_ticks :
    let s := waiting 1000#32 1000#32
    s.inited = true ∧ s.sched = .waitToRead ∧
      ∀ m ∈ [1000#32, 1001#32] ++ [1002#32],
        (m.toNat + (2 ^ 32 - s.tstart.toNat)) % 2 ^ 32 < params.convDelayMs := by
  have h := conv_delay_bounds
  refine ⟨rfl, rfl, fun m hm => ?_⟩
  simp only [List.cons_append, List.nil_append, List.mem_cons, List.not_mem_nil, or_false] at hm
  rcases hm with rfl | rfl | rfl <;> simp [waiting, ready] <;> omega

/-- `TicksReachTheRead`: start at 0xFFFFFFFE, early at 0, ready at 8. -/
theorem test_witness_ticks_reach :
    (ready []).inited = true ∧ (ready []).sched = .startConversion ∧
    (∀ m ∈ [0#32], (m.toNat + (2 ^ 32 - (0xFFFFFFFE#32).toNat)) % 2 ^ 32 < params.convDelayMs) ∧
    params.convDelayMs ≤ ((8#32).toNat + (2 ^ 32 - (0xFFFFFFFE#32).toNat)) % 2 ^ 32 := by
  have h := conv_delay_bounds
  refine ⟨rfl, rfl, fun m hm => ?_, ?_⟩
  · simp only [List.mem_singleton] at hm
    subst hm
    simp
    omega
  · simp
    omega

end Sys2Proof.Tests
end

section
/-! Rounding toward zero: the exact rational quotient rounded as 00_scope.md R7 and 43_compensation.md
R105 (e) say is the integer division, and what its remainder is. -/

namespace Sys2Proof.Machine

/-- Rounding toward zero is odd: the floor of one sign is the ceiling of the other. -/
theorem truncToward0_neg (x : ℚ) : truncToward0 (-x) = -truncToward0 x := by
  rcases lt_trichotomy x 0 with hx | rfl | hx
  · simp [truncToward0, hx.le, not_le.mpr hx, Int.floor_neg]
  · simp [truncToward0]
  · simp [truncToward0, hx.le, not_le.mpr hx, Int.ceil_neg]

/-- On naturals rounding toward zero is the floor, so the natural quotient. -/
theorem truncToward0_natCast_div (a b : ℕ) : truncToward0 ((a : ℚ) / b) = (a / b : ℕ) := by
  have h : (0 : ℚ) ≤ (a : ℚ) / b := by positivity
  rw [truncToward0, if_pos h, Rat.floor_natCast_div_natCast, Int.natCast_div]

/-- The exact quotient of two integers, rounded toward zero, is `tdiv` (43_compensation.md R105 (e)). -/
theorem truncToward0_intCast_div (n d : Int) : truncToward0 ((n : ℚ) / d) = tdiv n d := by
  rw [tdiv_eq]
  obtain ⟨a, rfl | rfl⟩ := n.eq_nat_or_neg <;> obtain ⟨b, rfl | rfl⟩ := d.eq_nat_or_neg <;>
    simp only [Int.cast_neg, Int.cast_natCast, neg_div, div_neg, truncToward0_neg,
      truncToward0_natCast_div, Int.neg_tdiv, Int.tdiv_neg, Int.ofNat_tdiv]

/-- What `tdiv` leaves over is the library's truncating remainder. -/
theorem sub_mul_tdiv (n d : Int) : n - d * tdiv n d = n.tmod d := by
  rw [tdiv_eq, Int.tmod_def]

/-- The truncating remainder is smaller than the divisor. -/
theorem abs_tmod_lt (n : Int) {d : Int} (hd : d ≠ 0) : |n.tmod d| < |d| := by
  rw [Int.abs_eq_natAbs, Int.abs_eq_natAbs, Int.natAbs_tmod]
  exact_mod_cast Nat.mod_lt _ (Int.natAbs_pos.mpr hd)

/-- The truncating remainder has the sign of the dividend or is 0. -/
theorem mul_tmod_nonneg (n d : Int) : 0 ≤ n * n.tmod d := by
  rcases le_total 0 n with hn | hn
  · exact mul_nonneg hn (Int.tmod_nonneg d hn)
  · have h : 0 ≤ (-n).tmod d := Int.tmod_nonneg d (neg_nonneg.mpr hn)
    rw [Int.neg_tmod] at h
    exact mul_nonneg_of_nonpos_of_nonpos hn (neg_nonneg.mp h)

/-- Settles O38: `tdiv` is the rounded quotient, and its remainder is the truncating one. -/
theorem tdivRoundsTowardZero : Obligations.TdivRoundsTowardZero := by
  intro n d hd
  rw [sub_mul_tdiv]
  exact ⟨(truncToward0_intCast_div n d).symm, abs_tmod_lt n hd, mul_tmod_nonneg n d⟩

end Sys2Proof.Machine
end

section
/-! The effect of a command determines its answer, and what it leaves unchanged is read off the effect
(10_state.md R27). -/

namespace Sys2Proof.Machine

/-- A command has one effect on a state: the premises of two effects of one command exclude each
other. -/
theorem Effect.unique {s t u : State} {i : Instr} (ht : Effect s i t) (hu : Effect s i u) :
    t = u := by
  cases ht with
  | tickReady h hs hd => cases hu <;> simp_all; omega
  | tickEarly h hs hd => cases hu <;> simp_all; omega
  | _ => cases hu <;> simp_all

/-- The effect of a command is its answer: the converse of `effect_of_exec`. -/
theorem Effect.exec_eq {s t : State} {i : Instr} (h : Effect s i t) : exec i s = .next t := by
  obtain ⟨u, hu, he⟩ := exec_effect i s
  rw [hu, h.unique he]

/-- With no command presented a step changes nothing (60_exceptions.md R154). -/
theorem step_of_no_command {s : State} (hp : s.port = []) : step s = .next s := by
  simp [step, takeCommand, hp, idle]

/-- A step on an illegal word refuses it (60_exceptions.md R146). -/
theorem step_of_illegal {s : State} {c : HostCmd} {rest : List HostCmd} {e : IllegalWord}
    (hp : s.port = c :: rest) (hd : decode c.cw = .error e) :
    step s = .next { s with
      port := rest, now := c.now, response := .refused .illegalCommand, refusedMark := true } := by
  simp [step, takeCommand, hp, hd, refuse, setRefusedMark]

/-- A step on a legal word has the effect of its command. -/
theorem step_of_effect {s t : State} {c : HostCmd} {rest : List HostCmd} {i : Instr}
    (hp : s.port = c :: rest) (hd : decode c.cw = .ok i)
    (he : Effect { s with port := rest, now := c.now } i t) : step s = .next t := by
  simp [step, takeCommand, hp, hd, he.exec_eq]

/-- Only the `INIT` that a block accepts writes coefficients, `INITED`, directions or `LATCH.SHDN`
(10_state.md R27). -/
theorem Effect.keeps_init_registers {s t : State} {i : Instr} (h : Effect s i t)
    (hi : i = .init → s.inited = true) :
    t.a0r = s.a0r ∧ t.b1r = s.b1r ∧ t.b2r = s.b2r ∧ t.c12r = s.c12r ∧ t.inited = s.inited ∧
      t.dir = s.dir ∧ t.latch.shdn = s.latch.shdn := by
  cases h with
  | init h => simp [h] at hi
  | _ => exact ⟨rfl, rfl, rfl, rfl, rfl, rfl, rfl⟩

/-- Only `TICK` in `ReadConversion` writes the samples and `SAMP_VALID` (10_state.md R27). -/
theorem Effect.keeps_samples {s t : State} {i : Instr} (h : Effect s i t)
    (hi : ¬(i = .tick ∧ s.sched = .readConversion)) :
    t.tadc = s.tadc ∧ t.padc = s.padc ∧ t.sampValid = s.sampValid := by
  cases h with
  | tickRead _ hs => exact absurd ⟨rfl, hs⟩ hi
  | _ => exact ⟨rfl, rfl, rfl⟩

/-- Only `TICK` in `StartConversion` writes `TSTART` (44_scheduler.md R122). -/
theorem Effect.keeps_tstart {s t : State} {i : Instr} (h : Effect s i t)
    (hi : ¬(i = .tick ∧ s.sched = .startConversion)) : t.tstart = s.tstart := by
  cases h with
  | tickStart _ hs => exact absurd ⟨rfl, hs⟩ hi
  | _ => rfl

/-- Only `TICK` writes `SCHED` (10_state.md R27). -/
theorem Effect.keeps_sched {s t : State} {i : Instr} (h : Effect s i t) (hi : i ≠ .tick) :
    t.sched = s.sched := by
  cases h with
  | tickStart | tickReady | tickRead => exact absurd rfl hi
  | _ => rfl

/-- `XCHG` does not touch the select (40_transport.md R71). -/
theorem Effect.keeps_csn_of_xchg {s t : State} {b : Byte} (h : Effect s (.xchg b) t) :
    t.latch.csn = s.latch.csn := by
  cases h <;> rfl

/-- `SEL` does not touch data-out (41_selector.md R75). -/
theorem Effect.keeps_dout_of_sel {s t : State} (h : Effect s .sel t) :
    t.latch.dout = s.latch.dout := by
  cases h <;> rfl

/-- The reads and the wait of the scheduler drive no pin and draw no oracle bit (43_compensation.md
R108, R112; 44_scheduler.md R124). -/
theorem Effect.keeps_wire {s t : State} {i : Instr} (h : Effect s i t)
    (hi : i = .rdp ∨ i = .rdt ∨ (i = .tick ∧ s.sched = .waitToRead)) :
    t.latch = s.latch ∧ t.drawn = s.drawn ∧ t.din = s.din := by
  cases h with
  | xchg | sel | desel | init => simp at hi
  | tickStart _ hs | tickRead _ hs => simp [hs] at hi
  | _ => exact ⟨rfl, rfl, rfl⟩

/-- A bracket without an exchange draws no oracle bit (10_state.md R27). -/
theorem Effect.keeps_oracle_of_select {s t : State} {i : Instr} (h : Effect s i t)
    (hi : i = .sel ∨ i = .desel) : t.drawn = s.drawn ∧ t.din = s.din := by
  cases h with
  | xchg | init | tickStart | tickRead => simp at hi
  | _ => exact ⟨rfl, rfl⟩

/-- The reads of the outputs append no event (43_compensation.md R108, R112). -/
theorem Effect.keeps_trace_of_read {s t : State} {i : Instr} (h : Effect s i t)
    (hi : i = .rdp ∨ i = .rdt) : t.tr = s.tr := by
  cases h with
  | xchg | sel | desel | init | tickStart | tickReady | tickEarly | tickRead => simp at hi
  | _ => rfl

/-- A command leaves the commands presented and the clock input alone (10_state.md R25). -/
theorem Effect.keeps_inputs {s t : State} {i : Instr} (h : Effect s i t) :
    t.port = s.port ∧ t.now = s.now := by
  cases h <;> exact ⟨rfl, rfl⟩

/-- No command clears a mark (10_state.md R17; 60_exceptions.md R146). -/
theorem Effect.keeps_marks {s t : State} {i : Instr} (h : Effect s i t) :
    (s.inited = true → t.inited = true) ∧ (s.sampValid = true → t.sampValid = true) ∧
      (s.refusedMark = true → t.refusedMark = true) := by
  cases h with
  | notInitialised | alreadyInitialised => exact ⟨id, id, fun _ => rfl⟩
  | init => exact ⟨fun _ => rfl, id, id⟩
  | tickRead => exact ⟨id, fun _ => rfl, id⟩
  | _ => exact ⟨id, id, id⟩

/-- Settles O24: one frame lemma for each row of the access table. -/
theorem commandsWriteOnlyTheirState : Obligations.CommandsWriteOnlyTheirState := by
  intro i s t h
  have he := effect_of_exec h
  refine ⟨fun hi => he.keeps_init_registers fun hi' => absurd hi' hi, he.keeps_samples,
    he.keeps_tstart, he.keeps_sched, ?_, ?_, fun hi => (he.keeps_wire hi).1, ?_,
    he.keeps_trace_of_read, he.keeps_inputs⟩
  · rintro b rfl
    exact he.keeps_csn_of_xchg
  · rintro rfl
    exact he.keeps_dout_of_sel
  · rintro (hi | hi | hi)
    · exact he.keeps_oracle_of_select (.inl hi)
    · exact he.keeps_oracle_of_select (.inr hi)
    · exact (he.keeps_wire hi).2

/-- Settles O26: the only writer of a coefficient is `INIT` on a block not yet initialised. -/
theorem coefficientsSetOnce : Obligations.CoefficientsSetOnce := by
  intro s t hs h
  obtain ⟨-, rfl⟩ | ⟨c, rest, -, ⟨e, -, rfl⟩ | ⟨i, -, he⟩⟩ := step_cases h
  · exact ⟨hs, rfl, rfl, rfl, rfl⟩
  · exact ⟨hs, rfl, rfl, rfl, rfl⟩
  · obtain ⟨ha0, hb1, hb2, hc12, hin, -, -⟩ := he.keeps_init_registers fun _ => hs
    exact ⟨hin.trans hs, ha0, hb1, hb2, hc12⟩

/-- Settles O27: no effect clears a mark, and the refusal of an illegal word sets one. -/
theorem marksNeverCleared : Obligations.MarksNeverCleared := by
  intro s t h
  obtain ⟨-, rfl⟩ | ⟨c, rest, -, ⟨e, -, rfl⟩ | ⟨i, -, he⟩⟩ := step_cases h
  · exact ⟨id, id, id⟩
  · exact ⟨id, id, fun _ => rfl⟩
  · exact he.keeps_marks

end Sys2Proof.Machine
end

section
/-! The state invariant (10_state.md R19, R20; 70_reset_and_hazards.md R160, R172). -/

namespace Sys2Proof.Machine

/-- The events `evs` account for all that happened on the wire between `s` and `t`: the trace grew by
them, each oracle bit drawn is a sample among them, each latch is where they last drove it. -/
structure Drives (s t : State) (evs : List Event) : Prop where
  trace : t.tr = s.tr ++ evs
  drawn : t.drawn = s.drawn + evs.countP Event.isSample
  latch : ∀ q, t.latch.get q = (lastWrite q evs).getD (s.latch.get q)

/-- A bracket drives the latches to rest (41_selector.md R80). -/
theorem get_restLatches (s s' : State) (sent : List Byte) (q : OutPin) :
    (restLatches s.latch).get q =
      (lastWrite q (bracketEvents s' sent)).getD (s.latch.get q) := by
  obtain ⟨hsclk, hdout, hcsn, hshdn⟩ := lastWrite_bracket s' sent
  cases q <;> simp [Latches.get, restLatches, *]

/-- The oracle bits of a bracket. -/
theorem countP_isSample_bracket (s : State) (sent : List Byte) :
    (bracketEvents s sent).countP Event.isSample = 8 * sent.length :=
  (bracketEvents_counts s sent).2.2

/-- The set-up of `INIT` draws no oracle bit. -/
theorem countP_isSample_setup (p : Params) : (setupEvents p).countP Event.isSample = 0 := by
  cases h : p.hasShdn <;> simp [setupEvents, h, Event.isSample]

/-- The set-up of `INIT` drives `CSN` to 1, `SHDN` to 1 where it exists, and no other pin. -/
theorem lastWrite_setup (p : Params) :
    lastWrite .dout (setupEvents p) = none ∧ lastWrite .sclk (setupEvents p) = none ∧
      lastWrite .csn (setupEvents p) = some true ∧
      lastWrite .shdn (setupEvents p) = if p.hasShdn then some true else none := by
  cases h : p.hasShdn <;> simp [setupEvents, h, lastWrite]

/-- The events of the accepted `INIT` account for its latches and its oracle bits. -/
theorem drives_init (s : State) :
    Drives s (initBody params s)
      (setupEvents params ++ bracketEvents s (seqBytes params (calTable params))) := by
  obtain ⟨sdout, ssclk, scsn, sshdn⟩ := lastWrite_setup params
  obtain ⟨bsclk, bdout, bcsn, bshdn⟩ := lastWrite_bracket s (seqBytes params (calTable params))
  rw [initBody_eq]
  refine ⟨rfl, ?_, fun q => ?_⟩
  · rw [List.countP_append, countP_isSample_setup, countP_isSample_bracket]
    rfl
  · rw [lastWrite_append]
    cases q
    case shdn => cases h : params.hasShdn <;> simp [Latches.get, *]
    all_goals simp [Latches.get, *]

/-- Every command appends events that account for its latches and its oracle bits, and without the
shutdown pin none of them drives it (10_state.md R19; 41_selector.md R82). -/
theorem Effect.drives {s t : State} {i : Instr} (h : Effect s i t) :
    ∃ evs, Drives s t evs ∧ (params.hasShdn = false → lastWrite .shdn evs = none) := by
  cases h with
  | xchg b =>
    exact ⟨frame b (responseByte s 0), ⟨rfl, rfl, fun q => by cases q <;> rfl⟩, fun _ => rfl⟩
  | sel => exact ⟨selectEvents, ⟨rfl, rfl, fun q => by cases q <;> rfl⟩, fun _ => rfl⟩
  | desel => exact ⟨deselectEvents, ⟨rfl, rfl, fun q => by cases q <;> rfl⟩, fun _ => rfl⟩
  | init =>
    refine ⟨_, initBody_eq s ▸ drives_init s, fun hp => ?_⟩
    rw [lastWrite_append, (lastWrite_bracket _ _).2.2.2, (lastWrite_setup _).2.2.2, hp]
    rfl
  | tickStart =>
    refine ⟨_, ⟨rfl, ?_, get_restLatches s s _⟩, fun _ => (lastWrite_bracket _ _).2.2.2⟩
    rw [List.countP_cons, countP_isSample_bracket]
    rfl
  | tickReady | tickEarly => exact ⟨[.now s.now], ⟨rfl, rfl, fun _ => rfl⟩, fun _ => rfl⟩
  | tickRead =>
    refine ⟨_, ⟨rfl, ?_, get_restLatches s s _⟩, fun _ => (lastWrite_bracket _ _).2.2.2⟩
    rw [countP_isSample_bracket]
    rfl
  | _ => exact ⟨[], ⟨(List.append_nil _).symm, rfl, fun _ => rfl⟩, fun _ => rfl⟩

/-- A command that leaves the block uninitialised was refused, so still nothing has happened. -/
theorem Effect.keeps_fresh {s t : State} {i : Instr} (h : Effect s i t) (hi : Inv params s)
    (ht : t.inited = false) :
    t.tr = [] ∧ t.drawn = 0 ∧ t.dir = unconfiguredDirs ∧ t.sched = .startConversion ∧
      t.sampValid = false := by
  cases h with
  | notInitialised => exact hi.fresh ht
  | _ => simp_all

/-- After `INIT` every command leaves the clock and data-out low, `SHDN` high and the pins configured
(70_reset_and_hazards.md R172). -/
theorem Effect.keeps_rest {s t : State} {i : Instr} (h : Effect s i t) (hi : Inv params s)
    (ht : t.inited = true) :
    t.latch.sclk = false ∧ t.latch.dout = false ∧
      (params.hasShdn = true → t.latch.shdn = true) ∧
      t.dir = configuredDirs params unconfiguredDirs := by
  cases h with
  | init h =>
    obtain ⟨-, -, hdir, -, -⟩ := hi.fresh h
    exact ⟨rfl, rfl, fun hp => if_pos hp, congrArg (configuredDirs params) hdir⟩
  | sel =>
    obtain ⟨-, hdout, hshdn, hdir⟩ := hi.rest ht
    exact ⟨rfl, hdout, hshdn, hdir⟩
  | xchg | desel | tickStart | tickRead =>
    obtain ⟨-, -, hshdn, hdir⟩ := hi.rest ht
    exact ⟨rfl, rfl, hshdn, hdir⟩
  | _ => exact hi.rest ht

/-- Every command keeps the state invariant. -/
theorem Effect.keeps_inv {s t : State} {i : Instr} (h : Effect s i t) (hi : Inv params s) :
    Inv params t := by
  obtain ⟨evs, hd, hns⟩ := h.drives
  refine ⟨h.keeps_fresh hi, h.keeps_rest hi, fun q v hv => ?_, ?_, fun hp => ?_⟩
  · rw [hd.trace, lastWrite_append] at hv
    rw [hd.latch]
    cases he : lastWrite q evs with
    | none => exact hi.latched q v (by simpa [he] using hv)
    | some w => simpa [he] using hv
  · rw [hd.trace, hd.drawn, List.countP_append, hi.sampled]
  · rw [hd.trace, lastWrite_append, hns hp, hi.noShdn hp]
    rfl

/-- The invariant says nothing about the inputs and the port's answer. -/
theorem Inv.of_port {s : State} (h : Inv params s) (port : List HostCmd) (now : ClockVal)
    (response : Response) (mark : Bool) :
    Inv params { s with port := port, now := now, response := response, refusedMark := mark } :=
  ⟨h.fresh, h.rest, h.latched, h.sampled, h.noShdn⟩

/-- Settles O21: a step takes a command from the port, which the invariant does not name, and runs an
effect, which keeps it. -/
theorem stepKeepsInvariant : Obligations.StepKeepsInvariant := by
  intro s t hs h
  obtain ⟨-, rfl⟩ | ⟨c, rest, -, ⟨e, -, rfl⟩ | ⟨i, -, he⟩⟩ := step_cases h
  · exact hs
  · exact hs.of_port rest c.now _ true
  · exact he.keeps_inv (hs.of_port rest c.now s.response s.refusedMark)

/-- Settles O19: `State.reset` writes these values out. -/
theorem resetLeavesSpecifiedValues : Obligations.ResetLeavesSpecifiedValues :=
  ⟨rfl, rfl, rfl, rfl, rfl⟩

/-- The state invariant holds at reset: nothing has happened and no pin was driven. -/
theorem inv_reset : Inv params State.reset where
  fresh _ := ⟨rfl, rfl, rfl, rfl, rfl⟩
  rest h := nomatch h
  latched _ _ h := nomatch h
  sampled := rfl
  noShdn _ := rfl

/-- The wire invariant holds at reset: the empty trace leaves the wire at its start. -/
theorem wireInv_reset : WireInv State.reset :=
  ⟨.start, rfl, .inr ⟨rfl, rfl⟩⟩

/-- Settles O20: the two base cases. -/
theorem resetMeetsInvariants : Obligations.ResetMeetsInvariants :=
  ⟨inv_reset, wireInv_reset⟩

end Sys2Proof.Machine
end

section
/-! Registers that the spec holds as unwritten reach nothing (10_state.md R26; 70_reset_and_hazards.md
R156). -/

namespace Sys2Proof.Machine

/-- The states agree on all but the registers and latches the spec holds as unwritten: what
`forgetUnwritten` tells apart, field by field. -/
structure AgreeOnWritten (p : Params) (s t : State) : Prop where
  sched : s.sched = t.sched
  inited : s.inited = t.inited
  sampValid : s.sampValid = t.sampValid
  dir : s.dir = t.dir
  tr : s.tr = t.tr
  refusedMark : s.refusedMark = t.refusedMark
  response : s.response = t.response
  port : s.port = t.port
  now : s.now = t.now
  din : s.din = t.din
  drawn : s.drawn = t.drawn
  freeDraws : s.freeDraws = t.freeDraws
  a0r : s.inited = true → s.a0r = t.a0r
  b1r : s.inited = true → s.b1r = t.b1r
  b2r : s.inited = true → s.b2r = t.b2r
  c12r : s.inited = true → s.c12r = t.c12r
  tadc : s.sampValid = true → s.tadc = t.tadc
  padc : s.sampValid = true → s.padc = t.padc
  tstart : s.sampValid = true ∨ s.sched ≠ .startConversion → s.tstart = t.tstart
  dout : s.inited = true → s.latch.dout = t.latch.dout
  sclk : s.inited = true → s.latch.sclk = t.latch.sclk
  csn : s.inited = true → s.latch.csn = t.latch.csn
  shdn : s.inited = true → p.hasShdn = true → s.latch.shdn = t.latch.shdn

/-- Equal images under `forgetUnwritten` are agreement on the written registers. -/
theorem forgetUnwritten_eq_iff {p : Params} {s t : State} :
    forgetUnwritten p s = forgetUnwritten p t ↔ AgreeOnWritten p s t := by
  constructor
  · intro h
    simp only [forgetUnwritten, State.mk.injEq, Latches.mk.injEq] at h
    constructor <;> grind
  · intro h
    cases h
    simp only [forgetUnwritten, State.mk.injEq, Latches.mk.injEq]
    grind

/-- The port and the clock input may be set alike in both states. -/
theorem AgreeOnWritten.take {p : Params} {s t : State} (h : AgreeOnWritten p s t)
    (port : List HostCmd) (now : ClockVal) :
    AgreeOnWritten p { s with port := port, now := now } { t with port := port, now := now } :=
  { h with port := rfl, now := rfl }

/-- A refusal answers alike. -/
theorem AgreeOnWritten.refuse {p : Params} {s t : State} (h : AgreeOnWritten p s t)
    (r : RefuseReason) :
    AgreeOnWritten p { s with response := .refused r, refusedMark := true }
      { t with response := .refused r, refusedMark := true } :=
  { h with response := rfl, refusedMark := rfl }

/-- A completed command answers alike. -/
theorem AgreeOnWritten.respond {p : Params} {s t : State} (h : AgreeOnWritten p s t)
    {v w : ResultWord} (hw : v = w) :
    AgreeOnWritten p { s with response := .result v } { t with response := .result w } :=
  { h with response := congrArg Response.result hw }

/-- Work on the wire that leaves the latches at the same rest levels. -/
theorem AgreeOnWritten.bracket {p : Params} {s t : State} (h : AgreeOnWritten p s t) (n : Nat)
    (sent : List Byte) :
    AgreeOnWritten p (afterWire n (bracketEvents s sent) (restLatches s.latch) s)
      (afterWire n (bracketEvents t sent) (restLatches t.latch) t) :=
  { h with
    din := congrArg (List.drop n) h.din
    drawn := congrArg (· + n) h.drawn
    tr := congrArg₂ (· ++ ·) h.tr (bracketEvents_congr h.din h.drawn sent)
    dout := fun _ => rfl
    sclk := fun _ => rfl
    csn := fun _ => rfl }

/-- Every command acts alike on two states that agree on what is written: it reads a coefficient or a
latch only after `INIT`, a sample only after a completed read, `TSTART` only after a start. -/
theorem Effect.agree {s t s' : State} {i : Instr} (h : Effect s i s')
    (ha : AgreeOnWritten params s t) : ∃ t', Effect t i t' ∧ AgreeOnWritten params s' t' := by
  have hresp (k : Nat) : responseByte s k = responseByte t k := responseByte_congr ha.din ha.drawn k
  cases h with
  | notInitialised i hi h => exact ⟨_, .notInitialised i hi (ha.inited ▸ h), ha.refuse _⟩
  | alreadyInitialised h => exact ⟨_, .alreadyInitialised (ha.inited ▸ h), ha.refuse _⟩
  | xchg b h =>
    exact ⟨_, .xchg b (ha.inited ▸ h),
      { ha with
        din := congrArg (List.drop 8) ha.din
        drawn := congrArg (· + 8) ha.drawn
        tr := by rw [ha.tr, hresp]
        response := by rw [hresp]
        dout := fun _ => rfl
        sclk := fun _ => rfl }⟩
  | sel h =>
    exact ⟨_, .sel (ha.inited ▸ h),
      { ha with
        tr := congrArg (· ++ selectEvents) ha.tr
        response := rfl
        sclk := fun _ => rfl
        csn := fun _ => rfl }⟩
  | desel h =>
    exact ⟨_, .desel (ha.inited ▸ h),
      { ha with
        tr := congrArg (· ++ deselectEvents) ha.tr
        response := rfl
        dout := fun _ => rfl
        sclk := fun _ => rfl
        csn := fun _ => rfl }⟩
  | init h =>
    have hkept : keptBytes s 8 = keptBytes t 8 := keptBytes_congr ha.din ha.drawn 8
    exact ⟨_, .init (ha.inited ▸ h),
      { ha with
        inited := rfl
        dir := congrArg (configuredDirs params) ha.dir
        din := congrArg (List.drop 136) ha.din
        drawn := congrArg (· + 136) ha.drawn
        tr := by rw [ha.tr, bracketEvents_congr ha.din ha.drawn]
        response := rfl
        a0r := fun _ => by rw [hkept]
        b1r := fun _ => by rw [hkept]
        b2r := fun _ => by rw [hkept]
        c12r := fun _ => by rw [hkept]
        dout := fun _ => rfl
        sclk := fun _ => rfl
        csn := fun _ => rfl
        shdn := fun _ hp => by rw [if_pos hp, if_pos hp] }⟩
  | tickStart h hs =>
    exact ⟨_, .tickStart (ha.inited ▸ h) (ha.sched ▸ hs),
      { ha.bracket 16 [params.cmdStart, params.flush] with
        sched := rfl
        tr := by rw [ha.tr, ha.now, bracketEvents_congr ha.din ha.drawn]
        response := rfl
        tstart := fun _ => ha.now }⟩
  | tickReady h hs hd =>
    have hstart : s.tstart = t.tstart := ha.tstart (.inr (by simp [hs]))
    exact ⟨_, .tickReady (ha.inited ▸ h) (ha.sched ▸ hs) (ha.now ▸ hstart ▸ hd),
      { ha with
        sched := rfl
        tr := by rw [ha.tr, ha.now]
        response := rfl
        tstart := fun _ => hstart }⟩
  | tickEarly h hs hd =>
    have hstart : s.tstart = t.tstart := ha.tstart (.inr (by simp [hs]))
    exact ⟨_, .tickEarly (ha.inited ▸ h) (ha.sched ▸ hs) (ha.now ▸ hstart ▸ hd),
      { ha with
        tr := by rw [ha.tr, ha.now]
        response := rfl }⟩
  | tickRead h hs =>
    have hstart : s.tstart = t.tstart := ha.tstart (.inr (by simp [hs]))
    exact ⟨_, .tickRead (ha.inited ▸ h) (ha.sched ▸ hs),
      { ha.bracket 72 (seqBytes params (dataTable params)) with
        sched := rfl
        sampValid := rfl
        response := rfl
        tadc := fun _ => by simp only [hresp]
        padc := fun _ => by simp only [hresp]
        tstart := fun _ => hstart }⟩
  | rdp h hv =>
    exact ⟨_, .rdp (ha.inited ▸ h) (ha.sampValid ▸ hv),
      ha.respond (by rw [ha.a0r h, ha.b1r h, ha.b2r h, ha.c12r h, ha.tadc hv, ha.padc hv])⟩
  | rdt h hv =>
    exact ⟨_, .rdt (ha.inited ▸ h) (ha.sampValid ▸ hv), ha.respond (by rw [ha.tadc hv])⟩
  | free i hi h hv =>
    exact ⟨_, .free i hi (ha.inited ▸ h) (ha.sampValid ▸ hv),
      { ha with
        response := by rw [ha.freeDraws]
        freeDraws := congrArg (· + 1) ha.freeDraws }⟩

/-- Every step acts alike on two states that agree on what is written. -/
theorem step_agree {s t s' : State} (h : step s = .next s') (ha : AgreeOnWritten params s t) :
    ∃ t', step t = .next t' ∧ AgreeOnWritten params s' t' := by
  obtain ⟨hp, rfl⟩ | ⟨c, rest, hp, ⟨e, hd, rfl⟩ | ⟨i, hd, he⟩⟩ := step_cases h
  · exact ⟨t, step_of_no_command (ha.port ▸ hp), ha⟩
  · exact ⟨_, step_of_illegal (ha.port ▸ hp) hd, (ha.take rest c.now).refuse _⟩
  · obtain ⟨t', he', ha'⟩ := he.agree (ha.take rest c.now)
    exact ⟨t', step_of_effect (ha.port ▸ hp) hd he', ha'⟩

/-- Settles O23: equal images are agreement on what is written, and a step keeps it. -/
theorem unwrittenRegistersReachNothing : Obligations.UnwrittenRegistersReachNothing := by
  intro s t s' t' h hs ht
  obtain ⟨u, hu, ha⟩ := step_agree hs (forgetUnwritten_eq_iff.mp h)
  cases hu.symm.trans ht
  exact forgetUnwritten_eq_iff.mpr ha

end Sys2Proof.Machine
end

section
/-! The reads of the outputs after a completed read (10_state.md R14; 43_compensation.md R115). -/

namespace Sys2Proof.Machine

/-- After a completed read `RDT` again changes nothing. -/
theorem rdtBody_idem (p : Params) {s : State} (hv : s.sampValid = true) :
    rdtBody p (rdtBody p s) = rdtBody p s := by
  simp [rdtBody, completeSigned_eq, hv]

/-- After a completed read `RDP` again changes nothing. -/
theorem rdpBody_idem (p : Params) {s : State} (hv : s.sampValid = true) :
    rdpBody p (rdpBody p s) = rdpBody p s := by
  simp [rdpBody, completeSigned_eq, hv]

/-- Settles O45: the effects of `RDT` and `RDP` after a completed read name samples and coefficients
only. -/
theorem readsAreRepeatable : Obligations.ReadsAreRepeatable := by
  intro s t hs ht hsv htv hT
  refine ⟨⟨_, (Effect.rdt hs hsv).exec_eq, ?_⟩, fun hP ha0 hb1 hb2 hc12 => ?_,
    fun p => ⟨rdpBody_idem p hsv, rdtBody_idem p hsv⟩⟩
  · rw [hT]
    exact (Effect.rdt ht htv).exec_eq
  · refine ⟨_, (Effect.rdp hs hsv).exec_eq, ?_⟩
    rw [ha0, hb1, hb2, hc12, hT, hP]
    exact (Effect.rdp ht htv).exec_eq

end Sys2Proof.Machine
end

section
/-! The wire discipline (30_encoding.md R48; 40_transport.md R69; 41_selector.md R76). -/

namespace Sys2Proof.Machine

/-- After `INIT` every command appends events that take a wire at rest to a wire at rest. -/
theorem Effect.appends_keepsWire {s t : State} {i : Instr} (h : Effect s i t)
    (hi : s.inited = true) : ∃ evs, t.tr = s.tr ++ evs ∧ KeepsWire evs := by
  cases h with
  | xchg b => exact ⟨_, rfl, keepsWire_frame b _⟩
  | sel => exact ⟨_, rfl, keepsWire_select⟩
  | desel => exact ⟨_, rfl, keepsWire_deselect⟩
  | init h => simp [h] at hi
  | tickStart => exact ⟨_, rfl, (keepsWire_now _).append (keepsWire_bracket _ _)⟩
  | tickReady | tickEarly => exact ⟨_, rfl, keepsWire_now _⟩
  | tickRead => exact ⟨_, rfl, keepsWire_bracket _ _⟩
  | _ => exact ⟨[], (List.append_nil _).symm, keepsWire_nil⟩

/-- On an initialised block the wire invariant says that the trace leaves the wire at rest. -/
theorem WireInv.atRest {s : State} (h : WireInv s) (hi : s.inited = true) :
    ∃ w, wireScan .start s.tr = some w ∧ w.AtRest := by
  obtain ⟨w, hw, hr | ⟨hf, -⟩⟩ := h
  · exact ⟨w, hw, hr⟩
  · simp [hi] at hf

/-- The wire invariant leaves the wire outside a pulse. -/
theorem WireInv.clock_idle {s : State} (h : WireInv s) :
    ∃ w, wireScan .start s.tr = some w ∧ (w.clock = .low ∨ w.clock = .unwritten) := by
  obtain ⟨w, hw, hr | ⟨-, hc⟩⟩ := h
  · exact ⟨w, hw, .inl hr.1⟩
  · exact ⟨w, hw, .inr hc⟩

/-- Every command keeps the wire invariant: `INIT` brings a wire outside a pulse to rest, the others
keep it at rest after `INIT` and are refused before it. -/
theorem Effect.keeps_wireInv {s t : State} {i : Instr} (h : Effect s i t) (hw : WireInv s) :
    WireInv t := by
  cases hin : s.inited with
  | true =>
    obtain ⟨w, hs, hr⟩ := hw.atRest hin
    obtain ⟨evs, htr, hk⟩ := h.appends_keepsWire hin
    obtain ⟨v, hv, hvr⟩ := hk w hr
    exact ⟨v, by rw [htr, wireScan_append _ hs, hv], .inl hvr⟩
  | false =>
    cases h with
    | notInitialised => exact hw
    | init =>
      obtain ⟨w, hs, hc⟩ := hw.clock_idle
      obtain ⟨v, hv, hvr⟩ :=
        wireScan_setup_bracket hc params s (seqBytes params (calTable params))
      exact ⟨v, by rw [wireScan_append _ hs, hv], .inl hvr⟩
    | _ => simp_all

/-- Settles O22: taking a command and refusing an illegal word leave the trace and `INITED` alone,
and every effect keeps the wire invariant. -/
theorem stepKeepsWireDiscipline : Obligations.StepKeepsWireDiscipline := by
  intro s t hs h
  obtain ⟨-, rfl⟩ | ⟨c, rest, -, ⟨e, -, rfl⟩ | ⟨i, -, he⟩⟩ := step_cases h
  · exact hs
  · exact hs
  · exact he.keeps_wireInv hs

end Sys2Proof.Machine
end

section
/-! Decoding and encoding of the command word (30_encoding.md R56, R57, R59, R61). -/

namespace Sys2Proof

/-- The two fields are the whole word (30_encoding.md R56). -/
theorem opField_append_imm8Field (w : CmdWord) : opField w ++ imm8Field w = w := by
  rw [opField, imm8Field,
    BitVec.extractLsb'_append_extractLsb'_eq_extractLsb' (start₁ := 0) (start₂ := 8) rfl]
  exact BitVec.extractLsb'_eq_self

theorem opField_encode (i : Instr) : opField (encode i) = opcodeOf i := by
  rw [opField, encode, BitVec.extractLsb'_append_eq_left]

theorem imm8Field_encode (i : Instr) : imm8Field (encode i) = operandOf i := by
  rw [imm8Field, encode, BitVec.extractLsb'_append_eq_right]

/-- The opcode field as a number is assigned where it is 1 to 7 (30_encoding.md R59). -/
theorem opcodeAssigned_iff (w : CmdWord) :
    CmdWord.opcodeAssigned w = true ↔ 1 ≤ (opField w).toNat ∧ (opField w).toNat ≤ 7 := by
  simp [CmdWord.opcodeAssigned, opField]

/-- The operand field is allowed on `XCHG` or where it is 0 (30_encoding.md R59). -/
theorem operandAllowed_iff (w : CmdWord) :
    CmdWord.operandAllowed w = true ↔ (opField w).toNat = 1 ∨ imm8Field w = 0#8 := by
  simp [CmdWord.operandAllowed, opField, imm8Field, ← BitVec.toNat_inj]

/-- What the decoder can do: read `XCHG` with its operand, read a command that takes none, or refuse
a reserved opcode. -/
theorem decode_cases (w : CmdWord) :
    ((opField w).toNat = 1 ∧ decode w = .ok (.xchg (imm8Field w))) ∨
    (∃ i, opField w = opcodeOf i ∧ operandOf i = 0#8 ∧
      2 ≤ (opField w).toNat ∧ (opField w).toNat ≤ 7 ∧
      decode w = noOperand (opField w) (imm8Field w) i) ∨
    (CmdWord.opcodeAssigned w = false ∧ decode w = .error (.reservedOpcode (opField w))) := by
  have hop : ∀ i, (opField w).toNat = (opcodeOf i).toNat → opField w = opcodeOf i :=
    fun i => BitVec.eq_of_toNat_eq
  simp only [decode]
  split
  case h_1 h => exact .inl ⟨h, rfl⟩
  case h_2 h => exact .inr (.inl ⟨.sel, hop .sel h, rfl, by omega, by omega, rfl⟩)
  case h_3 h => exact .inr (.inl ⟨.desel, hop .desel h, rfl, by omega, by omega, rfl⟩)
  case h_4 h => exact .inr (.inl ⟨.init, hop .init h, rfl, by omega, by omega, rfl⟩)
  case h_5 h => exact .inr (.inl ⟨.tick, hop .tick h, rfl, by omega, by omega, rfl⟩)
  case h_6 h => exact .inr (.inl ⟨.rdp, hop .rdp h, rfl, by omega, by omega, rfl⟩)
  case h_7 h => exact .inr (.inl ⟨.rdt, hop .rdt h, rfl, by omega, by omega, rfl⟩)
  case h_8 =>
    refine .inr (.inr ⟨?_, rfl⟩)
    rw [← Bool.not_eq_true, opcodeAssigned_iff]
    simp only [imp_false] at *
    omega

/-- A command without an operand is read only where the operand field is 0. -/
theorem noOperand_eq_ok_iff {op : BitVec 4} {imm8 : Byte} {i j : Instr} :
    noOperand op imm8 i = .ok j ↔ imm8 = 0#8 ∧ i = j := by
  unfold noOperand
  split <;> simp [*]

theorem decode_encode (i : Instr) : decode (encode i) = .ok i := by
  simp only [decode, opField_encode, imm8Field_encode]
  cases i <;> rfl

/-- A word that decodes has the fields of its command, so it is the encoding. -/
theorem eq_encode_of_decode {w : CmdWord} {i : Instr} (h : decode w = .ok i) : w = encode i := by
  rw [← opField_append_imm8Field w, encode]
  obtain ⟨hop, hd⟩ | ⟨j, hop, h0, -, -, hd⟩ | ⟨-, hd⟩ := decode_cases w
  · cases hd.symm.trans h
    rw [BitVec.eq_of_toNat_eq (y := 0x1#4) hop]
    rfl
  · obtain ⟨himm, rfl⟩ := noOperand_eq_ok_iff.mp (hd.symm.trans h)
    rw [hop, himm, h0]
  · cases hd.symm.trans h

/-- Settles O1: the decoder reads back every encoding, and a word that decodes has the fields of its
command. -/
theorem decodeInvertsEncode : Obligations.DecodeInvertsEncode :=
  fun _ i => ⟨eq_encode_of_decode, fun h => h ▸ decode_encode i⟩

/-- Settles O2: the three things the decoder can do, each against the class of the word. -/
theorem decodeAcceptsExactlyLegalWords : Obligations.DecodeAcceptsExactlyLegalWords := by
  intro w
  rw [CmdWord.legal, Bool.and_eq_true, ← Bool.not_eq_true, ← Bool.not_eq_true,
    opcodeAssigned_iff, operandAllowed_iff]
  obtain ⟨hop, hd⟩ | ⟨i, -, -, hlo, hhi, hd⟩ | ⟨hna, hd⟩ := decode_cases w
  · exact ⟨fun _ => ⟨_, hd⟩, fun h => by omega, fun _ h => absurd (.inl hop) h⟩
  · rw [hd, noOperand]
    exact ⟨fun ⟨_, ha⟩ => ⟨i, if_pos (ha.resolve_left (by omega))⟩, fun h => by omega,
      fun _ ha => if_neg fun h0 => ha (.inr h0)⟩
  · rw [← Bool.not_eq_true, opcodeAssigned_iff] at hna
    exact ⟨fun h => absurd h.1 hna, fun _ => hd, fun h => absurd h hna⟩

/-- Settles O3: the listed words, evaluated. -/
theorem decodeSpecWords : Obligations.DecodeSpecWords := by
  unfold Obligations.DecodeSpecWords
  decide

end Sys2Proof
end

section
/-! The step on a legal word, the layout of a frame and of a sample (30_encoding.md R46, R47, R53,
R55). -/

namespace Sys2Proof.Machine

/-- Settles O15: the command taken is the head of the port. -/
theorem stepRunsDecodedCommand : Obligations.StepRunsDecodedCommand := by
  intro s c rest i hp hd
  simp [step, takeCommand, hp, hd]

/-- Cell number `c` of a frame carries bit `7 - c` of both bytes (30_encoding.md R47). -/
theorem frame_cell (out resp : Byte) {c : Nat} (hc : c < 8) :
    ((frame out resp).drop (7 * c)).take 7 =
      cellEvents (out.getLsbD (7 - c)) (resp.getLsbD (7 - c)) := by
  interval_cases c <;> rfl

/-- A kind of event that every cell has `n` times stands `8 * n` times in a frame, and once more
where it is the closing `W(DOUT, 0)`. -/
theorem countP_frame {p : Event → Bool} {n : Nat} (h : ∀ b m, (cellEvents b m).countP p = n)
    (out resp : Byte) :
    (frame out resp).countP p = 8 * n + if p (.write .dout false) then 1 else 0 := by
  simp [frame, List.countP_append, h]
  omega

/-- Settles O32: a frame by its cells, and its counts as eight times those of a cell. -/
theorem frameLayoutCounts : Obligations.FrameLayoutCounts := by
  intro out resp
  exact ⟨fun _ hc => frame_cell out resp hc, rfl, rfl,
    countP_frame (n := 3) (fun _ _ => rfl) out resp,
    countP_frame (n := 1) (fun _ _ => rfl) out resp,
    countP_frame (n := 1) (fun _ _ => rfl) out resp,
    countP_frame (n := 2) (fun _ _ => rfl) out resp⟩

/-- Settles O37: dividing by 64 drops the six low bits of the word. -/
theorem sampleIsUpperTenBits : Obligations.SampleIsUpperTenBits := by
  intro hi lo
  refine ⟨by rw [sampleOf_toNat, pair_toNat], BitVec.eq_of_toNat_eq ?_⟩
  have h := (pair hi lo).isLt
  rw [sampleOf_toNat, BitVec.extractLsb'_toNat, Nat.shiftRight_eq_div_pow]
  omega

end Sys2Proof.Machine
end

section
/-! The exchange command: its whole next state, and the byte it returns with data-out wired to data-in
(40_transport.md R65 to R67). -/

namespace Sys2Proof.Machine

/-- Settles O4: the effect of an accepted `XCHG` is its answer. -/
theorem xchgExchangesOneByte : Obligations.XchgExchangesOneByte :=
  fun b _ hs => ⟨rfl, (Effect.xchg b hs).exec_eq⟩

/-- The sample of a cell comes after the cell's write of `DOUT` and before the next one, so it is
compared with the bit that cell sends (40_transport.md R67). -/
theorem loopedBack_cell (l b m : Bool) (es : List Event) :
    loopedBack l (cellEvents b m ++ es) = ((m == b) && loopedBack b es) := rfl

/-- A run of cells is looped back where each cell receives the bit it sends, whatever level `DOUT`
had before. -/
theorem loopedBack_cells_iff (out resp : Byte) (l : Bool) (is : List Nat) :
    loopedBack l (is.flatMap (fun i => cellEvents (out.getLsbD i) (resp.getLsbD i))
      ++ [.write .dout false]) = true ↔ ∀ i ∈ is, resp.getLsbD i = out.getLsbD i := by
  induction is generalizing l with
  | nil => simp [loopedBack]
  | cons i is ih =>
    simp only [List.flatMap_cons, List.append_assoc, loopedBack_cell, Bool.and_eq_true, beq_iff_eq,
      ih, List.forall_mem_cons]

/-- A frame is looped back where the byte received is the byte sent. -/
theorem loopedBack_frame_iff (out resp : Byte) (l : Bool) :
    loopedBack l (frame out resp) = true ↔ resp = out := by
  rw [frame, loopedBack_cells_iff]
  refine ⟨fun h => BitVec.eq_of_getLsbD_eq fun i hi => h i ?_, fun h _ _ => by rw [h]⟩
  simp only [List.mem_cons, List.not_mem_nil, or_false]
  omega

/-- Settles O33: the events of `XCHG` are a frame of the byte sent and the byte returned, and where
they are looped back these are equal. -/
theorem loopbackReturnsByteSent : Obligations.LoopbackReturnsByteSent := by
  intro b s t evs hs h htr hl
  cases h.symm.trans (Effect.xchg b hs).exec_eq
  rw [appended_unique rfl htr, loopedBack_frame_iff] at hl
  rw [hl]

end Sys2Proof.Machine
end

section
/-! The device select and the shutdown pin: what `SEL` and `DESEL` do, who leaves the device selected,
who drives `SHDN`, and that the block's own samples are bracketed (41_selector.md R75 to R82). -/

namespace Sys2Proof.Machine

/-- Settles O5: the effect of `SEL`, accepted and refused, is its answer. -/
theorem selSelectsDevice : Obligations.SelSelectsDevice :=
  ⟨rfl, fun _ => ⟨fun hs => (Effect.sel hs).exec_eq,
    fun hs => (Effect.notInitialised .sel nofun hs).exec_eq⟩⟩

/-- Settles O6: the effect of `DESEL`, accepted and refused, is its answer. -/
theorem deselDeselectsDevice : Obligations.DeselDeselectsDevice :=
  ⟨rfl, fun _ => ⟨fun hs => (Effect.desel hs).exec_eq,
    fun hs => (Effect.notInitialised .desel nofun hs).exec_eq⟩⟩

/-- A command other than `SEL` leaves the select where it was or deselects the device
(41_selector.md R80). -/
theorem Effect.keeps_csn_or_deselects {s t : State} {i : Instr} (h : Effect s i t) (hi : i ≠ .sel) :
    t.latch.csn = s.latch.csn ∨ t.latch.csn = true := by
  cases h with
  | sel => exact absurd rfl hi
  | desel | init | tickStart | tickRead => exact .inr rfl
  | _ => exact .inl rfl

/-- Settles O29: of all commands only `SEL` drives `CSN` to 0 and leaves it there. -/
theorem onlySelLeavesSelected : Obligations.OnlySelLeavesSelected := by
  intro i s t h
  refine ⟨fun hs ht => ?_, ?_⟩
  · by_contra hi
    have hcsn := (effect_of_exec h).keeps_csn_or_deselects hi
    simp [hs, ht] at hcsn
  · rintro hs rfl
    cases h.symm.trans (Effect.desel hs).exec_eq
    rfl

/-- The set-up of `INIT` writes `SHDN` only where the pin exists, and only to 1 (41_selector.md
R82). -/
theorem shdn_mem_setup {p : Params} {v : Bool} (h : Event.write .shdn v ∈ setupEvents p) :
    v = true ∧ p.hasShdn = true := by
  cases hp : p.hasShdn <;> simp [setupEvents, hp] at h
  exact ⟨h, rfl⟩

/-- A command other than the `INIT` that a block accepts appends events without a write of `SHDN`. -/
theorem Effect.appends_no_shdn {s t : State} {i : Instr} (h : Effect s i t)
    (hi : i = .init → s.inited = true) :
    ∃ evs, t.tr = s.tr ++ evs ∧ ∀ v, Event.write .shdn v ∉ evs := by
  cases h with
  | xchg b => exact ⟨_, rfl, fun v => by simp [frame, cellEvents]⟩
  | sel => exact ⟨_, rfl, fun v => by simp [selectEvents]⟩
  | desel => exact ⟨_, rfl, fun v => by simp [deselectEvents]⟩
  | init h => simp [h] at hi
  | tickStart => exact ⟨_, rfl, fun v => by simp [shdn_notMem_bracket]⟩
  | tickReady | tickEarly => exact ⟨_, rfl, fun v => by simp⟩
  | tickRead => exact ⟨_, rfl, shdn_notMem_bracket _ _⟩
  | _ => exact ⟨[], (List.append_nil _).symm, fun _ => List.not_mem_nil⟩

/-- Every command only adds events, and writes `SHDN` only in the `INIT` that initialises a block with
the pin, and only to 1. -/
theorem Effect.appends_wake_only {s t : State} {i : Instr} (h : Effect s i t) :
    ∃ evs, t.tr = s.tr ++ evs ∧ ∀ v, Event.write .shdn v ∈ evs →
      v = true ∧ params.hasShdn = true ∧ s.inited = false ∧ t.inited = true := by
  by_cases hi : i = .init → s.inited = true
  · obtain ⟨evs, htr, hno⟩ := h.appends_no_shdn hi
    exact ⟨evs, htr, fun v hv => absurd hv (hno v)⟩
  · obtain ⟨rfl, hs⟩ := Classical.not_imp.mp hi
    have hs : s.inited = false := Bool.eq_false_iff.mpr hs
    cases h.unique (.init hs)
    refine ⟨_, rfl, fun v hv => ?_⟩
    obtain hv | hv := List.mem_append.mp hv
    · obtain ⟨hv1, hp⟩ := shdn_mem_setup hv
      exact ⟨hv1, hp, hs, rfl⟩
    · exact absurd hv (shdn_notMem_bracket _ _ v)

/-- Settles O28: idling and refusing an illegal word append nothing, and every effect writes `SHDN`
only to wake the device. -/
theorem shutdownPinOnlyWokenOnce : Obligations.ShutdownPinOnlyWokenOnce := by
  intro s t h
  obtain ⟨-, rfl⟩ | ⟨c, rest, -, ⟨e, -, rfl⟩ | ⟨i, -, he⟩⟩ := step_cases h
  · exact ⟨[], (List.append_nil _).symm, nofun⟩
  · exact ⟨[], (List.append_nil _).symm, nofun⟩
  · exact he.appends_wake_only

/-- The set-up of `INIT` takes no sample and drives `CSN` to 1, so what follows it begins
deselected. -/
theorem samplesBracketed_setup_append (p : Params) (es : List Event) :
    samplesBracketed false (setupEvents p ++ es) = samplesBracketed false es := by
  cases hp : p.hasShdn <;> simp [setupEvents, hp, samplesBracketed]

/-- `INIT` and `TICK` append events whose samples are bracketed (41_selector.md R79). -/
theorem Effect.appends_bracketed {s t : State} {i : Instr} (h : Effect s i t)
    (hi : i = .init ∨ i = .tick) :
    ∃ evs, t.tr = s.tr ++ evs ∧ samplesBracketed false evs = true := by
  cases h with
  | notInitialised | alreadyInitialised => exact ⟨[], (List.append_nil _).symm, rfl⟩
  | xchg | sel | desel | rdp | rdt => simp at hi
  | init =>
    refine ⟨_, rfl, ?_⟩
    rw [samplesBracketed_setup_append, samplesBracketed_bracket]
  | tickStart => exact ⟨_, rfl, samplesBracketed_bracket _ _ false⟩
  | tickReady | tickEarly => exact ⟨_, rfl, rfl⟩
  | tickRead => exact ⟨_, rfl, samplesBracketed_bracket _ _ false⟩
  | free i hi' => rcases hi' with rfl | rfl <;> simp at hi

/-- Settles O30: every sample of `INIT` and `TICK` stands in a frame of a whole bracket. -/
theorem ownSequencesAreBracketed : Obligations.OwnSequencesAreBracketed := by
  intro i s t evs hi h htr
  obtain ⟨es, hes, hb⟩ := (effect_of_exec h).appends_bracketed hi
  rwa [appended_unique hes htr]

end Sys2Proof.Machine
end

section
/-! The counts of the events each command appends (41_selector.md R83; 42_calibration.md R98;
70_reset_and_hazards.md R170). -/

namespace Sys2Proof.Machine

/-- The number of events, the settle time and the number of samples of a list of events. -/
def eventCounts (evs : List Event) : Nat × Nat × Nat :=
  (evs.length, settleTimeUs params evs, evs.countP Event.isSample)

/-- The counts of events in two parts. -/
theorem eventCounts_append (es fs : List Event) :
    eventCounts (es ++ fs) = eventCounts es + eventCounts fs := by
  simp [eventCounts, settleTimeUs, settleDelays, Nat.add_mul]

theorem eventCounts_nil : eventCounts [] = 0 := by
  simp [eventCounts, settleTimeUs, settleDelays]

/-- A reading of the clock input takes no settle time. -/
theorem eventCounts_now (t : ClockVal) : eventCounts [.now t] = (1, 0, 0) := by
  simp [eventCounts, settleTimeUs, settleDelays, Event.isDelay, Event.isSample]

/-- A bracket around `n` frames (41_selector.md R83). -/
theorem eventCounts_bracket (s : State) (sent : List Byte) :
    eventCounts (bracketEvents s sent) =
      (57 * sent.length + 8, (24 * sent.length + 3) * params.tSettleUs, 8 * sent.length) := by
  obtain ⟨hlen, hdelay, hsample⟩ := bracketEvents_counts s sent
  rw [eventCounts, settleTimeUs, settleDelays, hlen, hdelay, hsample]

/-- The set-up of `INIT` has no settle delay and no sample, and two more events where the shutdown
pin exists (42_calibration.md R85). -/
theorem eventCounts_setup :
    eventCounts (setupEvents params) = (if params.hasShdn then 7 else 5, 0, 0) := by
  cases hp : params.hasShdn <;>
    simp [eventCounts, settleTimeUs, settleDelays, setupEvents, hp, Event.isDelay, Event.isSample]

/-- The accepted `INIT` (42_calibration.md R98): its set-up and 17 frames in a bracket. -/
theorem eventCounts_init (s : State) :
    eventCounts (setupEvents params ++ bracketEvents s (seqBytes params (calTable params))) =
      (if params.hasShdn then 984 else 982, 411 * params.tSettleUs, 136) := by
  have hlen : (seqBytes params (calTable params)).length = 17 := rfl
  rw [eventCounts_append, eventCounts_setup, eventCounts_bracket, hlen]
  cases params.hasShdn <;> simp

/-- `TICK` in `StartConversion`: the clock input read, then two frames in a bracket. -/
theorem eventCounts_tickStart (s : State) (t : ClockVal) :
    eventCounts (.now t :: bracketEvents s [params.cmdStart, params.flush]) =
      (123, 51 * params.tSettleUs, 16) := by
  rw [← List.singleton_append, eventCounts_append, eventCounts_now, eventCounts_bracket]
  simp

/-- The events a command appended, counted, where its effect is known. -/
theorem Effect.counts_eq {s t u : State} {i : Instr} {evs es : List Event} (he : Effect s i u)
    (h : exec i s = .next t) (htr : t.tr = s.tr ++ evs) (hes : u.tr = s.tr ++ es) :
    eventCounts evs = eventCounts es := by
  cases h.symm.trans he.exec_eq
  rw [appended_unique hes htr]

/-- The events of a command that leaves the trace alone, counted. -/
theorem eventCounts_of_tr_eq {s t : State} {evs : List Event} (htr : t.tr = s.tr ++ evs)
    (h : t.tr = s.tr) : eventCounts evs = (0, 0, 0) := by
  rw [List.self_eq_append_right.mp (h.symm.trans htr)]
  exact eventCounts_nil

/-- `TICK` in `WaitToRead` reads the clock input, and appends nothing else whether or not the delay has
elapsed (44_scheduler.md R124). -/
theorem Effect.wait_appends_now {s t : State} (h : Effect s .tick t) (hi : s.inited = true)
    (hs : s.sched = .waitToRead) : t.tr = s.tr ++ [.now s.now] := by
  cases h with
  | tickReady | tickEarly => rfl
  | _ => simp_all

/-- Settles O31: each command's events are the ones its effect names, and these are counted part by
part. -/
theorem commandsEmitSpecifiedCounts : Obligations.CommandsEmitSpecifiedCounts := by
  intro i s t evs h htr _ _
  refine ⟨fun hs => ⟨?_, ?_, ?_, ?_, ?_, ?_, ?_⟩, fun hs => ⟨?_, fun hi => ?_⟩⟩
  · rintro b rfl
    exact (Effect.xchg b hs).counts_eq h htr rfl
  · rintro rfl
    exact (Effect.sel hs).counts_eq h htr rfl
  · rintro rfl
    exact (Effect.desel hs).counts_eq h htr rfl
  · rintro rfl hsched
    exact ((Effect.tickStart hs hsched).counts_eq h htr rfl).trans (eventCounts_tickStart s s.now)
  · rintro rfl hsched
    have hevs := appended_unique ((effect_of_exec h).wait_appends_now hs hsched) htr
    exact (congrArg eventCounts hevs).trans (eventCounts_now s.now)
  · rintro rfl hsched
    exact ((Effect.tickRead hs hsched).counts_eq h htr rfl).trans (eventCounts_bracket s _)
  · rintro (hi | hi | rfl)
    · exact eventCounts_of_tr_eq htr ((effect_of_exec h).keeps_trace_of_read (.inl hi))
    · exact eventCounts_of_tr_eq htr ((effect_of_exec h).keeps_trace_of_read (.inr hi))
    · cases h.symm.trans (Effect.alreadyInitialised hs).exec_eq
      exact eventCounts_of_tr_eq htr rfl
  · rintro rfl
    exact ((Effect.init hs).counts_eq h htr rfl).trans (eventCounts_init s)
  · cases h.symm.trans (Effect.notInitialised i hi hs).exec_eq
    exact eventCounts_of_tr_eq htr rfl

end Sys2Proof.Machine
end

section
/-! The calibration record: what its words decode to, and the way back (30_encoding.md R51 to R54;
42_calibration.md R89 to R91, R97). -/

namespace Sys2Proof.Machine

/-- A big-endian pair as a signed number (42_calibration.md R90). -/
theorem pair_toInt (hi lo : Byte) :
    (pair hi lo).toInt =
      if (hi.toNat * 256 + lo.toNat : Int) ≥ 0x8000 then (hi.toNat * 256 + lo.toNat : Int) - 65536
      else hi.toNat * 256 + lo.toNat := by
  rw [BitVec.toInt_eq_toNat_cond, pair_toNat]
  split <;> split <;> omega

/-- A pair is negative where it is 0x8000 or more (42_calibration.md R90). -/
theorem pair_toInt_neg_iff (hi lo : Byte) :
    (pair hi lo).toInt < 0 ↔ (hi.toNat * 256 + lo.toNat : Int) ≥ 0x8000 := by
  have h := (pair hi lo).isLt
  rw [pair_toNat] at h
  rw [pair_toInt]
  split <;> omega

/-- A signed number goes back to its bits. -/
theorem ofInt_sext {n : Nat} (w : BitVec n) : BitVec.ofInt n (sext w) = w := BitVec.ofInt_toInt

/-- The signed `c12` word loses its two low bits to a division rounded toward minus infinity, and the
quotient fits 14 bits (42_calibration.md R91). -/
theorem ofInt_asr_two_toInt (w : Pair) : (BitVec.ofInt 14 (asr (sext w) 2)).toInt = w.toInt / 4 := by
  have hlo := BitVec.le_toInt w
  have hhi := BitVec.toInt_lt (x := w)
  rw [asr, sext, Int.fdiv_eq_ediv_of_nonneg _ (by decide), BitVec.toInt_ofInt_eq_self] <;> omega

/-- The `c12` register is the 14 upper bits of its word (30_encoding.md R52). -/
theorem ofInt_asr_two (w : Pair) : BitVec.ofInt 14 (asr (sext w) 2) = w.extractLsb' 2 14 := by
  have hw := w.isLt
  refine BitVec.eq_of_toInt_eq ?_
  rw [ofInt_asr_two_toInt, BitVec.toInt_eq_toNat_cond, BitVec.toInt_eq_toNat_cond,
    BitVec.extractLsb'_toNat, Nat.shiftRight_eq_div_pow]
  split <;> split <;> omega

/-- The four registers of a decoded record as bit slices of its words (42_calibration.md R89). -/
theorem decodeCal_eq (b0 b1 b2 b3 b4 b5 b6 b7 : Byte) :
    decodeCal [b0, b1, b2, b3, b4, b5, b6, b7] =
      { a0r := pair b0 b1, b1r := pair b2 b3, b2r := pair b4 b5,
        c12r := (pair b6 b7).extractLsb' 2 14 } := by
  simp only [decodeCal, ofInt_sext, ofInt_asr_two]
  rfl

/-- The decoded `c12` as a number (42_calibration.md R91). -/
theorem decodeCal_c12r_toInt (b0 b1 b2 b3 b4 b5 b6 b7 : Byte) :
    (decodeCal [b0, b1, b2, b3, b4, b5, b6, b7]).c12r.toInt = (pair b6 b7).toInt / 4 :=
  ofInt_asr_two_toInt (pair b6 b7)

/-- Settles O34: the first three registers are their words, and a quotient by four has the sign of the
word. -/
theorem coefficientPairsAreSigned : Obligations.CoefficientPairsAreSigned := by
  intro b0 b1 b2 b3 b4 b5 b6 b7 word signed c
  have hc : c = _ := decodeCal_eq b0 b1 b2 b3 b4 b5 b6 b7
  have hq : c.c12r.toInt = (pair b6 b7).toInt / 4 := decodeCal_c12r_toInt ..
  refine ⟨hc ▸ pair_toInt b0 b1, hc ▸ pair_toInt b2 b3, hc ▸ pair_toInt b4 b5, ?_, fun hw => ?_⟩
  · have hneg : (pair b6 b7).toInt < 0 ↔ word b6 b7 ≥ 0x8000 := pair_toInt_neg_iff b6 b7
    omega
  · rw [hq, pair_toInt, show (b6.toNat * 256 + b7.toNat : Int) = 0xFFFF from hw]
    rfl

/-- Settles O35: the quotient rounded toward minus infinity. -/
theorem c12ShiftsSignedWord : Obligations.C12ShiftsSignedWord := by
  intro b0 b1 b2 b3 b4 b5 b6 b7 w signed c
  have hc : c = signed / 4 := by
    rw [show c = _ from decodeCal_c12r_toInt .., pair_toInt]
  omega

@[simp] theorem hiByte_pair (hi lo : Byte) : hiByte (pair hi lo) = hi := by
  rw [hiByte, pair, BitVec.extractLsb'_append_eq_left]

@[simp] theorem loByte_pair (hi lo : Byte) : loByte (pair hi lo) = lo := by
  rw [loByte, pair, BitVec.extractLsb'_append_eq_right]

@[simp] theorem pair_hiByte_loByte (w : Pair) : pair (hiByte w) (loByte w) = w := by
  rw [hiByte, loByte, pair,
    BitVec.extractLsb'_append_extractLsb'_eq_extractLsb' (start₁ := 0) (start₂ := 8) rfl]
  exact BitVec.extractLsb'_eq_self

/-- The mask of R97 keeps the six upper bits of a byte. -/
theorem and_0xFC (b : Byte) : b &&& 0xFC#8 = b.extractLsb' 2 6 ++ 0#2 := by
  have hb : b = b.extractLsb' 2 6 ++ b.extractLsb' 0 2 := by
    rw [BitVec.extractLsb'_append_extractLsb'_eq_extractLsb' (start₁ := 0) (start₂ := 2) rfl]
    exact BitVec.extractLsb'_eq_self.symm
  calc b &&& 0xFC#8
      = (b.extractLsb' 2 6 ++ b.extractLsb' 0 2) &&& (BitVec.allOnes 6 ++ 0#2) :=
        congrArg (· &&& 0xFC#8) hb
    _ = b.extractLsb' 2 6 ++ 0#2 := by
        rw [BitVec.and_append, BitVec.and_allOnes, BitVec.and_zero]

/-- The upper 14 bits of a word above two zero bits are the word with its two low bits cleared
(30_encoding.md R54). -/
theorem slice_append_zeros (hi lo : Byte) :
    (pair hi lo).extractLsb' 2 14 ++ 0#2 = pair hi (lo &&& 0xFC#8) := by
  have h := (pair hi lo).isLt
  have h' := lo.isLt
  refine BitVec.eq_of_toNat_eq ?_
  simp only [pair_toNat, and_0xFC, BitVec.toNat_append, BitVec.extractLsb'_toNat, BitVec.toNat_ofNat,
    Nat.shiftLeft_eq, Nat.shiftRight_eq_div_pow, Nat.zero_mod, Nat.or_zero] at h ⊢
  omega

/-- Settles O36: splitting a word and pairing its bytes are inverse, and so are dropping and
appending two bits, but for what the bits were. -/
theorem calibrationRoundTrips : Obligations.CalibrationRoundTrips := by
  refine ⟨fun b0 b1 b2 b3 b4 b5 b6 b7 => ?_, fun c => ?_⟩
  · simp only [decodeCal_eq, encodeCal, slice_append_zeros, hiByte_pair, loByte_pair]
  · simp only [encodeCal, decodeCal_eq, pair_hiByte_loByte, BitVec.extractLsb'_append_eq_left]

end Sys2Proof.Machine
end

section
/-! The command `INIT`: its whole next state, and what it decodes from a data-in line stuck at one
level (42_calibration.md R85, R88, R98). -/

namespace Sys2Proof.Machine

/-- Settles O7: the effect of `INIT`, accepted and refused, is its answer. -/
theorem initReadsCalibration : Obligations.InitReadsCalibration := by
  refine ⟨rfl, fun s => ⟨fun hs => ?_, fun hs => (Effect.alreadyInitialised hs).exec_eq⟩⟩
  rw [List.append_assoc]
  exact (Effect.init hs).exec_eq

/-- An exchange whose eight oracle bits are all `v` receives the byte of eight `v`. -/
theorem responseByte_of_stuck {s : State} {v : Bool} {k : Nat}
    (h : ∀ i < 8, oracleBit s (8 * k + i) = v) : responseByte s k = BitVec.fill 8 v := by
  refine BitVec.eq_of_getLsbD_eq fun i hi => ?_
  rw [responseByte_getLsbD s k i hi, h _ (by omega), BitVec.getLsbD_fill]
  simp [hi]

/-- The calibration read keeps eight bytes of one level where the data-in line is stuck at it
(42_calibration.md R98). -/
theorem keptBytes_of_stuck {s : State} {v : Bool} (h : ∀ k < 136, oracleBit s k = v) :
    keptBytes s 8 = List.replicate 8 (BitVec.fill 8 v) := by
  refine List.eq_replicate_iff.2 ⟨by simp [keptBytes], fun b hb => ?_⟩
  obtain ⟨k, hk, rfl⟩ := List.mem_map.1 hb
  have hk := List.mem_range.1 hk
  exact responseByte_of_stuck fun i hi => h _ (by omega)

/-- Settles O8: the four words decoded from eight equal bytes, all bits 0 or all bits 1. -/
theorem initWithStuckDataIn : Obligations.InitWithStuckDataIn := by
  intro v s hs h
  refine ⟨_, (Effect.init hs).exec_eq, rfl, ?_⟩
  simp only [keptBytes_of_stuck h]
  cases v <;> decide

end Sys2Proof.Machine
end

section
/-! The pressure: the accumulator as a polynomial in its operands, its range, and the one rounding of the
result (43_compensation.md R101 to R110). -/

namespace Sys2Proof.Machine

/-- The five steps of the data path as one polynomial over the integers (43_compensation.md R102). -/
theorem pcomp22_eq (a0r b1r b2r : BitVec 16) (c12r : BitVec 14) (t p : BitVec 10) :
    pcomp22 a0r b1r b2r c12r t p =
      a0r.toInt * 2 ^ 19 + (b1r.toInt * 2 ^ 9 + c12r.toInt * t.toNat) * p.toNat
        + b2r.toInt * t.toNat * 2 ^ 8 := rfl

/-- Settles O39: each term of the polynomial is its exact term scaled by `2 ^ 22`. -/
theorem dataPathIsExactFormula : Obligations.DataPathIsExactFormula := by
  intro s
  rw [pcomp22_eq, pcompExact, a0Value, b1Value, b2Value, c12Value]
  push_cast
  ring

/-- A number between bounds of either sign, times a 10-bit sample, lies between the bounds times the
largest sample. -/
theorem mul_sample_bounds {lo hi x : Int} (hlo : lo ≤ x) (hhi : x ≤ hi) (hlo0 : lo ≤ 0)
    (hhi0 : 0 ≤ hi) (v : BitVec 10) : lo * 1023 ≤ x * v.toNat ∧ x * v.toNat ≤ hi * 1023 := by
  have hv0 : (0 : Int) ≤ v.toNat := Int.natCast_nonneg _
  have hv : (v.toNat : Int) ≤ 1023 := by omega
  constructor
  · calc lo * 1023 ≤ lo * v.toNat := mul_le_mul_of_nonpos_left hv hlo0
      _ ≤ x * v.toNat := mul_le_mul_of_nonneg_right hlo hv0
  · calc x * v.toNat ≤ hi * v.toNat := mul_le_mul_of_nonneg_right hhi hv0
      _ ≤ hi * 1023 := mul_le_mul_of_nonneg_left hv hhi0

/-- The accumulator lies in its range (43_compensation.md R104): the bounds of the sample products, from
the inner one out. -/
theorem pcomp22_bounds (a0r b1r b2r : BitVec 16) (c12r : BitVec 14) (t p : BitVec 10) :
    -51497672704 ≤ pcomp22 a0r b1r b2r c12r t p ∧ pcomp22 a0r b1r b2r c12r t p ≤ 51495316223 := by
  have signed16 (w : BitVec 16) : -32768 ≤ w.toInt ∧ w.toInt ≤ 32767 :=
    ⟨BitVec.le_toInt w, Int.le_of_lt_add_one BitVec.toInt_lt⟩
  have hc : -8192 ≤ c12r.toInt ∧ c12r.toInt ≤ 8191 :=
    ⟨BitVec.le_toInt c12r, Int.le_of_lt_add_one BitVec.toInt_lt⟩
  have ha := signed16 a0r
  have hb1 := signed16 b1r
  have hb2 := signed16 b2r
  have hct := mul_sample_bounds hc.1 hc.2 (by decide) (by decide) t
  have hbt := mul_sample_bounds hb2.1 hb2.2 (by decide) (by decide) t
  have hs1 : -25157632 ≤ b1r.toInt * 2 ^ 9 + c12r.toInt * t.toNat ∧
      b1r.toInt * 2 ^ 9 + c12r.toInt * t.toNat ≤ 25156097 := by omega
  have hsp := mul_sample_bounds hs1.1 hs1.2 (by decide) (by decide) p
  rw [pcomp22_eq]
  omega

/-- The lower end of the range is attained (43_compensation.md R104). -/
theorem pcomp22_smallest :
    pcomp22 0x8000#16 0x8000#16 0x8000#16 0x2000#14 1023#10 1023#10 = -51497672704 := by decide

/-- The upper end of the range is attained (43_compensation.md R104). -/
theorem pcomp22_largest :
    pcomp22 0x7FFF#16 0x7FFF#16 0x7FFF#16 0x1FFF#14 1023#10 1023#10 = 51495316223 := by decide

/-- Settles O40: the bounds of the polynomial, and its values at the operands the rule names. -/
theorem accumulatorRange : Obligations.AccumulatorRange :=
  ⟨pcomp22_bounds, pcomp22_smallest, pcomp22_largest⟩

/-- A larger accumulator gives no smaller pressure. -/
theorem pressureOut_mono {q : Params} (hq : 0 ≤ q.pMult) {a b : Int} (hab : a ≤ b) :
    pressureOut q a ≤ pressureOut q b := by
  rw [pressureOut, pressureOut, tdiv_eq, tdiv_eq]
  exact Int.tdiv_le_tdiv (by decide) (mul_le_mul_of_nonneg_left (by omega) hq)

/-- The pressure takes no parameter but the multiplier (43_compensation.md R107). -/
theorem pressureOut_of_pMult {q : Params} {m : Int} (hm : q.pMult = m) (acc : Int) :
    pressureOut q acc = tdiv (m * (acc * 65 + 214538649600)) 4290772992 := by rw [pressureOut, hm]

/-- The pressure over a range of the accumulator lies between its values at the ends. -/
theorem pressureOut_range {q : Params} {m a b acc lo hi : Int} (hm : q.pMult = m) (h0 : 0 ≤ m)
    (ha : a ≤ acc) (hb : acc ≤ b) (hlo : pressureOut q a = lo) (hhi : pressureOut q b = hi) :
    lo ≤ pressureOut q acc ∧ pressureOut q acc ≤ hi := by
  have hq : 0 ≤ q.pMult := hm ▸ h0
  exact ⟨hlo ▸ pressureOut_mono hq ha, hhi ▸ pressureOut_mono hq hb⟩

/-- Settles O41: each range lies between the values of the pressure at the ends of the accumulator's
range, or of the device scale. -/
theorem pressureResultRange : Obligations.PressureResultRange := by
  intro q a0r b1r b2r c12r t p acc lo hi
  have hlo : lo = -51497672704 := pcomp22_smallest
  have hhi : hi = 51495316223 := pcomp22_largest
  obtain ⟨hacclo, hacchi⟩ : lo ≤ acc ∧ acc ≤ hi := by
    rw [hlo, hhi]
    exact pcomp22_bounds ..
  refine ⟨fun h => ?_, fun h => ?_, fun h0 h1 => ⟨fun h => ?_, fun h => ?_⟩⟩
  · have vlo : pressureOut q lo = -73012 := by rw [hlo, pressureOut_of_pMult h]; rfl
    have vhi : pressureOut q hi = 83009 := by rw [hhi, pressureOut_of_pMult h]; rfl
    obtain ⟨rlo, rhi⟩ := pressureOut_range h (by decide) hacclo hacchi vlo vhi
    exact ⟨rlo, rhi, vlo, vhi⟩
  · have vlo : pressureOut q lo = -730127 := by rw [hlo, pressureOut_of_pMult h]; rfl
    have vhi : pressureOut q hi = 830091 := by rw [hhi, pressureOut_of_pMult h]; rfl
    obtain ⟨rlo, rhi⟩ := pressureOut_range h (by decide) hacclo hacchi vlo vhi
    exact ⟨rlo, rhi, vlo, vhi⟩
  · exact pressureOut_range h (by decide) h0 h1 (pressureOut_of_pMult h _) (pressureOut_of_pMult h _)
  · exact pressureOut_range h (by decide) h0 h1 (pressureOut_of_pMult h _) (pressureOut_of_pMult h _)

/-- A value fits where it lies in the signed 32-bit range (30_encoding.md R58). -/
theorem fitsResult_iff (v : Int) : fitsResult v = true ↔ -(2 ^ 31) ≤ v ∧ v < 2 ^ 31 :=
  decide_eq_true_iff

/-- The word of a value that fits, read as a signed number, is the value. -/
theorem toInt_ofInt_of_fits {v : Int} (h : fitsResult v = true) : (BitVec.ofInt 32 v).toInt = v := by
  obtain ⟨hlo, hhi⟩ := (fitsResult_iff v).1 h
  exact BitVec.toInt_ofInt_eq_self (by decide) hlo hhi

/-- With either multiplier the pressure fits the result word (30_encoding.md R58). -/
theorem fitsResult_pressureOut {q : Params} (hq : q.pMult = 100 ∨ q.pMult = 1000)
    (a0r b1r b2r : BitVec 16) (c12r : BitVec 14) (t p : BitVec 10) :
    fitsResult (pressureOut q (pcomp22 a0r b1r b2r c12r t p)) = true := by
  obtain ⟨h100, h1000, -⟩ := pressureResultRange q a0r b1r b2r c12r t p
  rw [fitsResult_iff]
  rcases hq with h | h
  · obtain ⟨hlo, hhi, -⟩ := h100 h
    omega
  · obtain ⟨hlo, hhi, -⟩ := h1000 h
    omega

/-- The pressure is the exact one times the multiplier, rounded once (43_compensation.md R107, R109): the
divisor is `1023 * 2 ^ 22` and the constant 50 kPa over it. -/
theorem pressureOut_eq_truncToward0 (q : Params) (s : State) :
    pressureOut q (pcomp22 s.a0r s.b1r s.b2r s.c12r s.tadc s.padc) =
      truncToward0 ((q.pMult : ℚ) * pressureKPa s) := by
  rw [pressureOut, ← truncToward0_intCast_div, pressureKPa, ← dataPathIsExactFormula s]
  congr 1
  push_cast
  ring

end Sys2Proof.Machine
end

section
/-! The temperature: the exact linear formula rounded once, and the corner cases of both outputs
(43_compensation.md R111, R118). -/

namespace Sys2Proof.Machine

/-- The constraints on a set of parameters (00_scope.md R6), one by one. -/
theorem params_wf_iff (p : Params) :
    p.wf = true ↔
      0 < p.tSettleUs ∧ (3 ≤ p.convDelayMs ∧ p.convDelayMs ≤ 10) ∧ (p.pMult = 100 ∨ p.pMult = 1000) ∧
        0 < p.tMult ∧ p.slopeNum ≠ 0 ∧ 0 < p.slopeDen := by
  simp only [Params.wf, Bool.and_eq_true, decide_eq_true_eq, and_assoc]

/-- Settles O43: the numerator of `TemperatureOut` over `SLOPE_NUM` is the exact formula. -/
theorem temperatureIsExactFormulaTruncated : Obligations.TemperatureIsExactFormulaTruncated := by
  intro p s hp
  obtain ⟨-, -, -, -, hnum, -⟩ := (params_wf_iff p).1 hp
  have hnum : (p.slopeNum : ℚ) ≠ 0 := Int.cast_ne_zero.2 hnum
  rw [temperatureOut, ← truncToward0_intCast_div, temperatureExact, zext]
  congr 1
  push_cast
  field_simp

/-- A multiple of the divisor leaves nothing to round. -/
theorem tdiv_mul_cancel (n : Int) {d : Int} (hd : d ≠ 0) : tdiv (n * d) d = n := by
  rw [tdiv_eq, Int.mul_tdiv_cancel n hd]

/-- Settles O44: both numerators are multiples of their divisors, and at sample 0 the products of the
data path vanish. -/
theorem compensationCorners : Obligations.CompensationCorners := by
  intro q a0r b1r b2r c12r t p
  refine ⟨?_, ?_, fun hnum ht => ?_⟩
  · have hacc : pcomp22 0#16 0#16 0#16 0#14 t p = 0 := by simp [pcomp22_eq]
    rw [hacc, pressureOut, ← tdiv_mul_cancel (50 * q.pMult) (d := 4290772992) (by decide)]
    congr 1
    ring
  · simp [pcomp22_eq]
  · rw [temperatureOut, zext, ht, ← tdiv_mul_cancel (25 * q.tMult) hnum]
    congr 1
    ring

end Sys2Proof.Machine
end

section
/-! The commands `RDP` and `RDT`: their whole next state (43_compensation.md R108, R112). -/

namespace Sys2Proof.Machine

/-- The block's multiplier is one of the two of 00_scope.md R6. -/
theorem params_pMult : params.pMult = 100 ∨ params.pMult = 1000 := by
  obtain ⟨-, -, hm, -⟩ := (params_wf_iff params).1 params_wf
  exact hm

/-- Settles O13: the three effects of `RDP`; the pressure always fits the word. -/
theorem rdpReturnsPressure : Obligations.RdpReturnsPressure := by
  refine ⟨rfl, fun s => ⟨fun hs hv => ?_, fun hs hv => (Effect.free _ (.inl rfl) hs hv).exec_eq,
    fun hs => (Effect.notInitialised _ (by decide) hs).exec_eq⟩⟩
  rw [← signedResult_of_fits (fitsResult_pressureOut params_pMult ..)]
  exact (Effect.rdp hs hv).exec_eq

/-- Settles O42: the word of `RDP` read as a signed number is the pressure, since that fits, and the
pressure is the exact one rounded once. -/
theorem rdpIsExactPressureTruncated : Obligations.RdpIsExactPressureTruncated := by
  intro s hs hv
  obtain ⟨hread, -, -⟩ := rdpReturnsPressure.2 s
  refine ⟨_, hread hs hv, ?_⟩
  rw [toInt_ofInt_of_fits (fitsResult_pressureOut params_pMult ..), pressureOut_eq_truncToward0]

/-- Settles O14: the three effects of `RDT`; the word of the first is `signedResult`, by its two cases. -/
theorem rdtReturnsTemperature : Obligations.RdtReturnsTemperature :=
  ⟨rfl, fun _ => ⟨fun hs hv => (Effect.rdt hs hv).exec_eq,
    fun hs hv => (Effect.free _ (.inr rfl) hs hv).exec_eq,
    fun hs => (Effect.notInitialised _ (by decide) hs).exec_eq⟩⟩

end Sys2Proof.Machine
end

section
/-! The command `TICK`: its whole next state in each arm of the scheduler, and that the pair of samples
is written whole (44_scheduler.md R120 to R131). -/

namespace Sys2Proof.Machine

/-- A sample is a slice of the two bytes received (30_encoding.md R53). -/
theorem sampleOf_pair (hi lo : Byte) : sampleOf (pair hi lo) = (hi ++ lo).extractLsb' 6 10 :=
  (sampleIsUpperTenBits hi lo).2

/-- Settles O9: the effect of `TICK` in `StartConversion` is its answer. -/
theorem tickStartsConversion : Obligations.TickStartsConversion := by
  intro s hs hsched
  rw [List.append_assoc]
  exact (Effect.tickStart hs hsched).exec_eq

/-- Settles O10: the two effects of `TICK` in `WaitToRead`, told apart by the elapsed time. -/
theorem tickWaitsForDelay : Obligations.TickWaitsForDelay := by
  intro s hs hsched
  rw [← elapsedMs_eq]
  exact ⟨fun hd => (Effect.tickReady hs hsched hd).exec_eq,
    fun hd => (Effect.tickEarly hs hsched hd).exec_eq⟩

/-- Settles O11: the effect of `TICK` in `ReadConversion` is its answer, each sample as a slice. -/
theorem tickReadsSamples : Obligations.TickReadsSamples := by
  intro s hs hsched
  rw [← sampleOf_pair, ← sampleOf_pair]
  exact (Effect.tickRead hs hsched).exec_eq

/-- Settles O25: of all effects only that of `TICK` in `ReadConversion` writes a sample, and it writes
both. -/
theorem samplePairIsAtomic : Obligations.SamplePairIsAtomic := by
  intro i s t h
  cases effect_of_exec h with
  | tickRead hs hsched => exact .inr ⟨rfl, hs, hsched, sampleOf_pair _ _, sampleOf_pair _ _⟩
  | _ => exact .inl ⟨rfl, rfl⟩

end Sys2Proof.Machine
end

section
/-! Sequences of ticks: early ticks change nothing but the trace, and a start, early ticks and one tick
after the delay reach the read (44_scheduler.md R125, R127). -/

namespace Sys2Proof.Machine

/-- A tick answers the effect of `TICK` on the state with the clock value presented. -/
theorem Effect.tickAt_eq {n : ClockVal} {s t : State} (h : Effect { s with now := n } .tick t) :
    tickAt n s = .next t :=
  h.exec_eq

theorem ticks_cons {n : ClockVal} {ns : List ClockVal} {s t : State} (h : tickAt n s = .next t) :
    ticks (n :: ns) s = ticks ns t := by
  simp [ticks, h]

/-- Ticks in two parts, the second from where the first ends. -/
theorem ticks_append_of_some {ns : List ClockVal} {s t : State} (ms : List ClockVal)
    (h : ticks ns s = some t) : ticks (ns ++ ms) s = ticks ms t := by
  induction ns generalizing s with
  | nil =>
    cases h
    rfl
  | cons n ns ih =>
    obtain ⟨u, hu, -⟩ := exec_effect .tick { s with now := n }
    rw [ticks_cons hu] at h
    rw [List.cons_append, ticks_cons hu, ih h]

/-- One early tick (44_scheduler.md R124). -/
theorem tickAt_early {n : ClockVal} {s : State} (hs : s.inited = true)
    (hsched : s.sched = .waitToRead) (hn : elapsedMs n s.tstart < params.convDelayMs) :
    tickAt n s = .next { s with now := n, tr := s.tr ++ [.now n], response := .result 0#32 } :=
  (Effect.tickEarly (s := { s with now := n }) hs hsched hn).tickAt_eq

/-- Settles O46, by induction on the ticks before the last: each leaves the block waiting for the same
conversion, and its own clock value and answer are replaced by those of the next. -/
theorem earlyTicksChangeNothing : Obligations.EarlyTicksChangeNothing := by
  intro ns n s hs hsched hearly
  simp only [← elapsedMs_eq] at hearly
  induction ns generalizing s with
  | nil => exact ticks_cons (tickAt_early hs hsched (hearly n (List.mem_singleton_self n)))
  | cons m ns ih =>
    obtain ⟨hm, hrest⟩ := List.forall_mem_cons.mp hearly
    rw [List.cons_append, ticks_cons (tickAt_early hs hsched hm), ih]
    · simp
    · exact hs
    · exact hsched
    · exact hrest

/-- In state `v` the scheduler is at `c`, for the conversion started at `start` from state `s`: the
samples and the mark of a refusal are still those of `s`. -/
structure ConversionAt (c : Sched) (start : ClockVal) (s v : State) : Prop where
  inited : v.inited = true
  sched : v.sched = c
  tstart : v.tstart = start
  tadc : v.tadc = s.tadc
  padc : v.padc = s.padc
  refusedMark : v.refusedMark = s.refusedMark

/-- The tick in `StartConversion` begins the wait (44_scheduler.md R122). -/
theorem tickAt_start (start : ClockVal) {s : State} (hs : s.inited = true)
    (hsched : s.sched = .startConversion) :
    ∃ v, tickAt start s = .next v ∧ ConversionAt .waitToRead start s v :=
  ⟨_, (Effect.tickStart (s := { s with now := start }) hs hsched).tickAt_eq,
    ⟨hs, rfl, rfl, rfl, rfl, rfl⟩⟩

/-- Early ticks, any number of them or none, keep the wait (44_scheduler.md R125). -/
theorem ConversionAt.ticks_early {start : ClockVal} {s v : State}
    (hv : ConversionAt .waitToRead start s v) {early : List ClockVal}
    (hearly : ∀ m ∈ early, (m.toNat + (2 ^ 32 - start.toNat)) % 2 ^ 32 < params.convDelayMs) :
    ∃ w, ticks early v = some w ∧ ConversionAt .waitToRead start s w := by
  obtain rfl | ⟨ns, n, rfl⟩ := List.eq_nil_or_concat' early
  · exact ⟨v, rfl, hv⟩
  · obtain ⟨hinited, hsched, rfl, htadc, hpadc, hmark⟩ := hv
    exact ⟨_, earlyTicksChangeNothing ns n v hinited hsched hearly,
      ⟨hinited, hsched, rfl, htadc, hpadc, hmark⟩⟩

/-- The tick after the delay ends the wait (44_scheduler.md R124). -/
theorem ConversionAt.tickAt_ready {start ready : ClockVal} {s v : State}
    (hv : ConversionAt .waitToRead start s v)
    (hready : params.convDelayMs ≤ (ready.toNat + (2 ^ 32 - start.toNat)) % 2 ^ 32) :
    ∃ t, tickAt ready v = .next t ∧ ConversionAt .readConversion start s t := by
  obtain ⟨hinited, hsched, rfl, htadc, hpadc, hmark⟩ := hv
  rw [← elapsedMs_eq] at hready
  exact ⟨_, (Effect.tickReady (s := { v with now := ready }) hinited hsched hready).tickAt_eq,
    ⟨hinited, rfl, rfl, htadc, hpadc, hmark⟩⟩

/-- The tick in `StartConversion` and early ticks end in the wait. -/
theorem ticks_start_early {start : ClockVal} {early : List ClockVal} {s : State}
    (hs : s.inited = true) (hsched : s.sched = .startConversion)
    (hearly : ∀ m ∈ early, (m.toNat + (2 ^ 32 - start.toNat)) % 2 ^ 32 < params.convDelayMs) :
    ∃ v, ticks (start :: early) s = some v ∧ ConversionAt .waitToRead start s v := by
  obtain ⟨v, hstart, hv⟩ := tickAt_start start hs hsched
  rw [ticks_cons hstart]
  exact hv.ticks_early hearly

/-- The tick in `ReadConversion` stores fresh samples and is back in `StartConversion`, whatever the clock
value (44_scheduler.md R126, R130). -/
theorem tickAt_read (last : ClockVal) {t : State} (hs : t.inited = true)
    (hsched : t.sched = .readConversion) :
    ∃ u, tickAt last t = .next u ∧ u.sched = .startConversion ∧ u.sampValid = true ∧
      u.tadc = (responseByte t 5 ++ responseByte t 7).extractLsb' 6 10 ∧
      u.padc = (responseByte t 1 ++ responseByte t 3).extractLsb' 6 10 ∧
      u.refusedMark = t.refusedMark :=
  ⟨_, tickReadsSamples { t with now := last } hs hsched, rfl, rfl, rfl, rfl, rfl⟩

/-- Settles O47: every prefix of the early ticks ends in the wait, the tick after the delay ends it, and
the tick after that reads. -/
theorem ticksReachTheRead : Obligations.TicksReachTheRead := by
  intro start ready last early s hs hsched hearly hready
  refine ⟨fun k => ?_, ?_⟩
  · obtain ⟨v, hticks, hv⟩ := ticks_start_early hs hsched fun m hm =>
      hearly m (List.mem_of_mem_take (i := k) hm)
    exact ⟨v, hticks, hv.sched⟩
  · obtain ⟨v, hticks, hv⟩ := ticks_start_early hs hsched hearly
    obtain ⟨t, hend, ht⟩ := hv.tickAt_ready hready
    obtain ⟨u, hread, husched, huvalid, hutadc, hupadc, humark⟩ :=
      tickAt_read last ht.inited ht.sched
    exact ⟨t, u, (ticks_append_of_some [ready] hticks).trans (ticks_cons hend), ht.sched, ht.tadc,
      ht.padc, ht.tstart, hread, husched, huvalid, hutadc, hupadc, humark.trans ht.refusedMark⟩

end Sys2Proof.Machine
end

section
/-! What is refused, what completes, and that no command and no step stops the machine
(60_exceptions.md R140, R146, R154). -/

namespace Sys2Proof.Machine

/-- A word that is not legal decodes to none of the commands (30_encoding.md R59). -/
theorem decode_error_of_not_legal {w : CmdWord} (h : CmdWord.legal w = false) :
    ∃ e, decode w = .error e := by
  obtain ⟨-, hreserved, hoperand⟩ := decodeAcceptsExactlyLegalWords w
  cases ha : CmdWord.opcodeAssigned w with
  | false => exact ⟨_, hreserved ha⟩
  | true => exact ⟨_, hoperand ha (by simpa [CmdWord.legal, ha] using h)⟩

/-- A command that meets its precondition (`INIT` before `INIT`, every other command after it) completes
with a result and keeps the refusal mark (60_exceptions.md R146). -/
theorem Effect.completes {s t : State} {i : Instr} (h : Effect s i t)
    (hpre : i = .init ↔ s.inited = false) :
    ∃ res, t.response = .result res ∧ t.refusedMark = s.refusedMark := by
  cases h with
  | notInitialised _ hi hs => exact absurd (hpre.mpr hs) hi
  | alreadyInitialised hs => exact absurd (hpre.mp rfl) (by simp [hs])
  | _ => exact ⟨_, rfl, rfl⟩

/-- Every command answers a next state (60_exceptions.md R140). -/
theorem exec_total (i : Instr) (s : State) : ∃ t, exec i s = .next t := by
  obtain ⟨t, ht, -⟩ := exec_effect i s
  exact ⟨t, ht⟩

/-- Every step answers a next state: idle, the refusal of an illegal word, or the answer of its command
(60_exceptions.md R140, R147). -/
theorem step_total (s : State) : ∃ t, step s = .next t := by
  cases hp : s.port with
  | nil => exact ⟨s, step_of_no_command hp⟩
  | cons c rest =>
    cases hd : decode c.cw with
    | error e => exact ⟨_, step_of_illegal hp hd⟩
    | ok i =>
      rw [stepRunsDecodedCommand s c rest i hp hd]
      exact exec_total i _

/-- Settles O12: the two refusals among the effects of a command. -/
theorem commandsRefusedOutsidePrecondition : Obligations.CommandsRefusedOutsidePrecondition := by
  refine ⟨rfl, fun i s => ⟨fun hi hs => (Effect.notInitialised i hi hs).exec_eq, ?_⟩⟩
  rintro rfl hs
  exact (Effect.alreadyInitialised hs).exec_eq

/-- Settles O16: the idle step. -/
theorem stepIdlesWithoutCommand : Obligations.StepIdlesWithoutCommand := fun _ => step_of_no_command

/-- Settles O17: a command has an effect, and a step is idle, a refusal or a command. -/
theorem everyStepAnswersNextState : Obligations.EveryStepAnswersNextState := ⟨exec_total, step_total⟩

/-- Settles O18: the refusal of an illegal word by the step, the two refusals by the command, the other
effects of a command by `Effect.completes`, and the mark by `marksNeverCleared`. -/
theorem stepRefusesOnlyAsSpecified : Obligations.StepRefusesOnlyAsSpecified := by
  intro s c rest hp
  refine ⟨fun hl => ?_, fun i hd hi hs => step_of_effect hp hd (.notInitialised i hi hs),
    fun hd hs => step_of_effect hp hd (.alreadyInitialised hs), fun i hd hpre => ?_, fun hm => ?_⟩
  · obtain ⟨e, he⟩ := decode_error_of_not_legal hl
    exact step_of_illegal hp he
  · obtain ⟨t, -, he⟩ := exec_effect i { s with port := rest, now := c.now }
    obtain ⟨res, hres, hmark⟩ := he.completes hpre
    exact ⟨t, res, step_of_effect hp hd he, hres, hmark⟩
  · obtain ⟨t, ht⟩ := step_total s
    obtain ⟨-, -, hkeep⟩ := marksNeverCleared s t ht
    exact ⟨t, ht, hkeep hm⟩

end Sys2Proof.Machine
end
